-- ==== Sys2Proof/Word.lean ====
section
/-! DEFINITION. The bit vectors of the block: bytes, halfwords and words (spec 00_scope.md R16). -/
namespace Sys2Proof

/-- `u8` of R16: arithmetic wraps modulo 2^8. -/
abbrev Byte := BitVec 8

/-- `u16` of R16; also a generation-1 address (R100). -/
abbrev Half := BitVec 16

/-- `u32` of R16; also a generation-2 address (R100). -/
abbrev Word := BitVec 32

end Sys2Proof
end

