-- ==== Sys2Proof/Config.lean ====
section
/-! DEFINITION. The parameters the block is built from (spec 00_scope.md R8 to R14), the inputs the
host supplies with each call (R15), and the free values (`draw` of R18). A machine's parameters are
the read-only component `cfg` of its state, so a statement over every state is one over every
parameter value. -/
namespace Sys2Proof

/-- Parameter `GEN` (R8). -/
inductive Gen
  | gen1 | gen2
  deriving DecidableEq, Repr, Inhabited

/-- The bank-controller families (R10, R261). -/
inductive Family
  | romOnly | a | b | c | d
  deriving DecidableEq, Repr, Inhabited

/-- Parameter `CART` (R10). `otherDevice` is set when the cartridge declares a controller or a device
the source does not name (R7 item 5, R609). -/
structure Cart where
  family : Family
  romBankCount : Nat
  ramSize : Nat
  hasBattery : Bool
  hasRtc : Bool
  hasRumble : Bool
  otherDevice : Bool
  deriving DecidableEq, Repr, Inhabited

/-- What a byte of an array reads as while nothing has stored to it: a known byte, or a free value
(R18 `draw`) that `Config.freeByte` gives for the array's tag and the index. -/
inductive Fill
  | known (b : Byte)
  | draw (tag : Nat)
  deriving DecidableEq, Repr, Inhabited

/-- A byte array of `size` bytes held sparsely: the indexes that differ from the fill, rising. -/
structure Image where
  size : Nat
  fill : Fill
  cells : List Host.Cell
  deriving DecidableEq, Repr, Inhabited

/-- The variants a `SAVE_OVERRIDE` entry can name (R12). -/
inductive SaveVariant
  | batteryRam | eeprom6 | eeprom14 | flash64 | flash128
  deriving DecidableEq, Repr, Inhabited

/-- The timing parameters (R13, R671), in the caller's cycle unit. -/
structure Timing where
  eepromWrite : Nat
  flashProgram : Nat
  flashEraseSector : Nat
  flashEraseChip : Nat
  oamStart : Nat
  oamUnit : Nat
  vdmaBlock : Nat
  gbaStart : Nat
  gbaUnit : Nat
  deriving DecidableEq, Repr, Inhabited

/-- The CPU context of a call (R15, R31). -/
structure CpuCtx where
  prefetch : Word
  thumb : Bool
  pcInBios : Bool
  deriving DecidableEq, Repr, Inhabited

/-- `ppu.mode` (R15). -/
inductive ScreenMode
  | mode0 | mode1 | mode2 | mode3
  deriving DecidableEq, Repr, Inhabited

/-- The screen signal of a call (R15). -/
structure Ppu where
  lcdOn : Bool
  mode : ScreenMode
  deriving DecidableEq, Repr, Inhabited

/-- `vram_bg_limit` (R15): 0x10000 or 0x14000. -/
inductive BgLimit
  | limit10000 | limit14000
  deriving DecidableEq, Repr, Inhabited

/-- The host inputs that come with a call (R15). `now()` is an integer count of seconds since the UNIX epoch,
negative before it. -/
structure HostIn where
  now : Int
  cpu : CpuCtx
  ppu : Ppu
  bgLimit : BgLimit
  deriving DecidableEq, Repr, Inhabited

/-- The buses of the generation-1 partition (R119). -/
inductive Bus
  | external | video | internal
  deriving DecidableEq, Repr, Inhabited

/-- Parameter `GB_BUS_OF` (R14, R119): the spec's default map, or another function, of which nothing
is known. -/
inductive BusMap
  | standard
  | other (id : Nat)
  deriving DecidableEq, Repr, Inhabited

/-- Parameter `OPEN_BUS_FN` (R14, R116): the spec's default, or another function, of which nothing is
known. -/
inductive OpenBusMap
  | standard
  | other (id : Nat)
  deriving DecidableEq, Repr, Inhabited

/-- A flash chip identifier: `FLASH_ID_64K` or `FLASH_ID_128K` (R14, R371). -/
structure FlashId where
  manufacturer : Byte
  device : Byte
  deriving DecidableEq, Repr, Inhabited

/-- Every parameter of the block (R8 to R14). `sniffDual` is `FLASH_SIZE_DEFAULT`: false for 0x10000
bytes, true for 0x20000. -/
structure Config where
  gen : Gen
  cgb : Bool
  cart : Cart
  rom : Image
  boot : Option Image
  bios : Image
  saveOverride : Option SaveVariant
  timing : Timing
  preambleBits : Nat
  flashId64 : FlashId
  flashId128 : FlashId
  sniffDual : Bool
  openBus : OpenBusMap
  busMap : BusMap
  deriving DecidableEq, Repr, Inhabited

/-- The n-th free value of a run (R18 `draw`): nothing is known of it. -/
opaque Config.freeWord : Nat → Word

/-- What a never-written byte of a drawn array reads as (R18, R641): nothing is known of it. -/
opaque Config.freeByte : Nat → Nat → Byte

/-- The upper byte of the last halfword of a generation-2 ROM of odd length: R118 states no value for it,
and nothing is known of it (log 16). -/
opaque Config.romTail : Byte

/-- A `GB_BUS_OF` other than the default (R119). -/
opaque Config.busOther : Nat → Half → Bus

/-- An `OPEN_BUS_FN` other than the default (R116). -/
opaque Config.openBusOther : Nat → CpuCtx → Word

/-- DESIGN CHOICE (log 2): the parameters of `State.reset`. Family A with 64 banks, 32 KiB of battery
RAM and no boot ROM, as program P1 of 95_test_vectors.md, on a colour machine; timings as the vectors
use them, where they give one. Every statement is over all parameters, none rests on these. -/
def Config.standard : Config where
  gen := .gen1
  cgb := true
  cart := { family := .a, romBankCount := 64, ramSize := 0x8000, hasBattery := true,
            hasRtc := false, hasRumble := false, otherDevice := false }
  rom := { size := 0x100000, fill := .known 0xFF, cells := [] }
  boot := none
  bios := { size := 0x4000, fill := .known 0x00, cells := [] }
  saveOverride := none
  timing := { eepromWrite := 10000, flashProgram := 100, flashEraseSector := 1000,
              flashEraseChip := 10000, oamStart := 4, oamUnit := 4, vdmaBlock := 32,
              gbaStart := 2, gbaUnit := 2 }
  preambleBits := 3
  flashId64 := { manufacturer := 0x00, device := 0x00 }
  flashId128 := { manufacturer := 0x00, device := 0x00 }
  sniffDual := false
  openBus := .standard
  busMap := .standard

end Sys2Proof
end

