-- ==== Sys2Proof/Syntax.lean ====
section
/-! DEFINITION. The operations the block decodes, whole: one constructor of `Instr` for each row of
spec/opcode_table.json (30_encoding.md R187), with the operands the row's word and fields leave open. -/
namespace Sys2Proof

/-- A generation-2 DMA channel (R45). -/
inductive Chan
  | c0 | c1 | c2 | c3
  deriving DecidableEq, Repr, Inhabited

/-- A bus master (R18, R622): the CPU, a generation-1 DMA engine or a generation-2 DMA channel. -/
inductive Master
  | cpu | oam | vdma
  | chan (k : Chan)
  deriving DecidableEq, Repr, Inhabited

/-- The kind of a read (R18). -/
inductive AccessKind
  | fetch | data
  deriving DecidableEq, Repr, Inhabited

/-- An access width n of 1, 2 or 4 bytes (R111). -/
inductive Width
  | b1 | b2 | b4
  deriving DecidableEq, Repr, Inhabited

/-- The argument of `load` (R175): no save file, its bytes, or a file the host cannot read (R569). -/
inductive SaveFile
  | absent
  | bytes (l : List Byte)
  | unreadable
  deriving DecidableEq, Repr, Inhabited

/-- The formats of the opcode table (R187). -/
inductive Format
  | call | gbWrite | gbRead | gbaIo | flashCmd | eepromStream
  deriving DecidableEq, Repr, Inhabited

/-- What a caller sends: a format and the bytes of the encoded operation, lowest first. -/
structure Frame where
  fmt : Format
  bytes : List Byte
  deriving DecidableEq, Repr, Inhabited

/-- The operations, in the table's order. -/
inductive Instr
  /-- `BUS_READ8`, R220, n = 1. -/
  | busRead8 (m : Master) (k : AccessKind) (a : Word)
  /-- `BUS_READ16`, R220, n = 2. -/
  | busRead16 (m : Master) (k : AccessKind) (a : Word)
  /-- `BUS_READ32`, R220, n = 4. -/
  | busRead32 (m : Master) (k : AccessKind) (a : Word)
  /-- `BUS_WRITE8`, R223, n = 1. -/
  | busWrite8 (m : Master) (a : Word) (v : Byte)
  /-- `BUS_WRITE16`, R223, n = 2. -/
  | busWrite16 (m : Master) (a : Word) (v : Half)
  /-- `BUS_WRITE32`, R223, n = 4. -/
  | busWrite32 (m : Master) (a : Word) (v : Word)
  /-- `TICK`, R226. -/
  | tick (c : Int)
  /-- `TRIGGER_VBLANK`, R228. -/
  | triggerVblank
  /-- `TRIGGER_HBLANK`, R228. -/
  | triggerHblank
  /-- `TRIGGER_FIFOA`, R228. -/
  | triggerFifoa
  /-- `TRIGGER_FIFOB`, R228. -/
  | triggerFifob
  /-- `LOAD_GEN1`, R551. -/
  | loadGen1 (f : SaveFile)
  /-- `SERIALIZE_GEN1`, R552; whether the host can write the file (R569). -/
  | serializeGen1 (writable : Bool)
  /-- `LOAD_GEN2`, R560. -/
  | loadGen2 (f : SaveFile)
  /-- `SERIALIZE_GEN2`, R567; whether the host can write the file (R569). -/
  | serializeGen2 (writable : Bool)
  /-- `GB_DMA_WRITE`, R451: 0xFF46. -/
  | gbDmaWrite (v : Byte)
  /-- `GB_VBK_WRITE`, R231: 0xFF4F. -/
  | gbVbkWrite (v : Byte)
  /-- `GB_BOOT_WRITE`, R232: 0xFF50. -/
  | gbBootWrite (v : Byte)
  /-- `GB_HDMA1`, R461: 0xFF51. -/
  | gbHdma1 (v : Byte)
  /-- `GB_HDMA2`, R461: 0xFF52. -/
  | gbHdma2 (v : Byte)
  /-- `GB_HDMA3`, R461: 0xFF53. -/
  | gbHdma3 (v : Byte)
  /-- `GB_HDMA4`, R461: 0xFF54. -/
  | gbHdma4 (v : Byte)
  /-- `GB_HDMA5_GDMA`, R462: 0xFF55, bit 7 = 0. -/
  | gbHdma5Gdma (len : BitVec 7)
  /-- `GB_HDMA5_HDMA`, R463: 0xFF55, bit 7 = 1. -/
  | gbHdma5Hdma (len : BitVec 7)
  /-- `GB_HDMA5_CANCEL`, R464: 0xFF55, bit 7 = 0, during an hblank transfer. -/
  | gbHdma5Cancel (len : BitVec 7)
  /-- `GB_HDMA5_RESTART`, R465: 0xFF55, bit 7 = 1, during an hblank transfer. -/
  | gbHdma5Restart (len : BitVec 7)
  /-- `GB_SVBK_WRITE`, R233: 0xFF70. -/
  | gbSvbkWrite (v : Byte)
  /-- `GB_DMA_READ`, R230: 0xFF46. -/
  | gbDmaRead
  /-- `GB_VBK_READ`, R231: 0xFF4F. -/
  | gbVbkRead
  /-- `GB_BOOT_READ`, R232: 0xFF50. -/
  | gbBootRead
  /-- `GB_HDMA1_READ`, R461: 0xFF51. -/
  | gbHdma1Read
  /-- `GB_HDMA2_READ`, R461: 0xFF52. -/
  | gbHdma2Read
  /-- `GB_HDMA3_READ`, R461: 0xFF53. -/
  | gbHdma3Read
  /-- `GB_HDMA4_READ`, R461: 0xFF54. -/
  | gbHdma4Read
  /-- `GB_HDMA5_READ`, R470: 0xFF55. -/
  | gbHdma5Read
  /-- `GB_SVBK_READ`, R233: 0xFF70. -/
  | gbSvbkRead
  /-- `GB_IO_FORWARD_READ`, R229: 0xFF00 + a, an address the block does not own. -/
  | gbIoForwardRead (a : BitVec 7)
  /-- `A_RAMG`, R274: 0x0000 + a. -/
  | aRamg (a : BitVec 13) (v : Byte)
  /-- `A_ROMB0`, R271: 0x2000 + a. -/
  | aRomb0 (a : BitVec 13) (v : Byte)
  /-- `A_RAMB`, R272: 0x4000 + a. -/
  | aRamb (a : BitVec 13) (v : Byte)
  /-- `A_MODE`, R273: 0x6000 + a. -/
  | aMode (a : BitVec 13) (v : Byte)
  /-- `B_RAMG`, R277: a[13:9] = hi, a[8] = 0, a[7:0] = lo. -/
  | bRamg (hi : BitVec 5) (lo : Byte) (v : Byte)
  /-- `B_ROMB`, R277: a[13:9] = hi, a[8] = 1, a[7:0] = lo. -/
  | bRomb (hi : BitVec 5) (lo : Byte) (v : Byte)
  /-- `B_IGNORED`, R278: 0x4000 + a. -/
  | bIgnored (a : BitVec 14) (v : Byte)
  /-- `C_RAMG`, R281: 0x0000 + a. -/
  | cRamg (a : BitVec 13) (v : Byte)
  /-- `C_ROMB`, R282: 0x2000 + a. -/
  | cRomb (a : BitVec 13) (v : Byte)
  /-- `C_RAMB`, R283: 0x4000 + a. -/
  | cRamb (a : BitVec 13) (v : Byte)
  /-- `C_LATCH`, R284: 0x6000 + a. -/
  | cLatch (a : BitVec 13) (v : Byte)
  /-- `D_RAMG`, R288: 0x0000 + a. -/
  | dRamg (a : BitVec 13) (v : Byte)
  /-- `D_ROMB0`, R289: 0x2000 + a. -/
  | dRomb0 (a : BitVec 12) (v : Byte)
  /-- `D_ROMB1`, R290: 0x3000 + a. -/
  | dRomb1 (a : BitVec 12) (v : Byte)
  /-- `D_RAMB`, R291: 0x4000 + a. -/
  | dRamb (a : BitVec 13) (v : Byte)
  /-- `D_IGNORED`, R292: 0x6000 + a. -/
  | dIgnored (a : BitVec 13) (v : Byte)
  /-- `NONE_IGNORED`, R270: 0x0000 + a. -/
  | noneIgnored (a : BitVec 15) (v : Byte)
  /-- `CART_RAM_WRITE`, R305: 0xA000 + a. -/
  | cartRamWrite (a : BitVec 13) (v : Byte)
  /-- `RTC_WRITE_S`, R418: 0xA000 + a. -/
  | rtcWriteS (a : BitVec 13) (v : Byte)
  /-- `RTC_WRITE_M`, R418: 0xA000 + a. -/
  | rtcWriteM (a : BitVec 13) (v : Byte)
  /-- `RTC_WRITE_H`, R418: 0xA000 + a. -/
  | rtcWriteH (a : BitVec 13) (v : Byte)
  /-- `RTC_WRITE_DL`, R418: 0xA000 + a. -/
  | rtcWriteDl (a : BitVec 13) (v : Byte)
  /-- `RTC_WRITE_DH`, R419: 0xA000 + a. -/
  | rtcWriteDh (a : BitVec 13) (v : Byte)
  /-- `ROM_READ_LOW`, R268: 0x0000 + a. -/
  | romReadLow (a : BitVec 14)
  /-- `ROM_READ_HIGH`, R268: 0x4000 + a. -/
  | romReadHigh (a : BitVec 14)
  /-- `A_ROM_MAP`, R275: 0x0000 + a. -/
  | aRomMap (a : BitVec 15)
  /-- `B_ROM_MAP`, R279: 0x0000 + a. -/
  | bRomMap (a : BitVec 15)
  /-- `C_ROM_MAP`, R285: 0x0000 + a. -/
  | cRomMap (a : BitVec 15)
  /-- `D_ROM_MAP`, R293: 0x0000 + a. -/
  | dRomMap (a : BitVec 15)
  /-- `CART_RAM_READ`, R305: 0xA000 + a. -/
  | cartRamRead (a : BitVec 13)
  /-- `A_RAM_MAP`, R276: 0xA000 + a. -/
  | aRamMap (a : BitVec 13)
  /-- `B_RAM_MAP`, R280: 0xA000 + a. -/
  | bRamMap (a : BitVec 13)
  /-- `C_RAM_MAP`, R287: 0xA000 + a. -/
  | cRamMap (a : BitVec 13)
  /-- `RTC_READ`, R417: 0xA000 + a. -/
  | rtcRead (a : BitVec 13)
  /-- `GBA_DMA0_SAD`, R491: 0x040000B0. -/
  | gbaDma0Sad (w : Width) (v : Word)
  /-- `GBA_DMA0_DAD`, R491: 0x040000B4. -/
  | gbaDma0Dad (w : Width) (v : Word)
  /-- `GBA_DMA0_CNT_L`, R491: 0x040000B8. -/
  | gbaDma0CntL (w : Width) (v : Word)
  /-- `GBA_DMA0_CNT_H`, R491: 0x040000BA. -/
  | gbaDma0CntH (w : Width) (v : Word)
  /-- `GBA_DMA0_ENABLE`, R494: 0x040000BA, bit 15 = 1. -/
  | gbaDma0Enable (ctl : BitVec 15)
  /-- `GBA_DMA0_DISABLE`, R508: 0x040000BA, bit 15 = 0. -/
  | gbaDma0Disable (ctl : BitVec 15)
  /-- `GBA_DMA0_READ`, R492: 0x040000B0 + off. -/
  | gbaDma0Read (off : Fin 12) (w : Width)
  /-- `GBA_DMA1_SAD`, R491: 0x040000BC. -/
  | gbaDma1Sad (w : Width) (v : Word)
  /-- `GBA_DMA1_DAD`, R491: 0x040000C0. -/
  | gbaDma1Dad (w : Width) (v : Word)
  /-- `GBA_DMA1_CNT_L`, R491: 0x040000C4. -/
  | gbaDma1CntL (w : Width) (v : Word)
  /-- `GBA_DMA1_CNT_H`, R491: 0x040000C6. -/
  | gbaDma1CntH (w : Width) (v : Word)
  /-- `GBA_DMA1_ENABLE`, R494: 0x040000C6, bit 15 = 1. -/
  | gbaDma1Enable (ctl : BitVec 15)
  /-- `GBA_DMA1_DISABLE`, R508: 0x040000C6, bit 15 = 0. -/
  | gbaDma1Disable (ctl : BitVec 15)
  /-- `GBA_DMA1_READ`, R492: 0x040000BC + off. -/
  | gbaDma1Read (off : Fin 12) (w : Width)
  /-- `GBA_DMA2_SAD`, R491: 0x040000C8. -/
  | gbaDma2Sad (w : Width) (v : Word)
  /-- `GBA_DMA2_DAD`, R491: 0x040000CC. -/
  | gbaDma2Dad (w : Width) (v : Word)
  /-- `GBA_DMA2_CNT_L`, R491: 0x040000D0. -/
  | gbaDma2CntL (w : Width) (v : Word)
  /-- `GBA_DMA2_CNT_H`, R491: 0x040000D2. -/
  | gbaDma2CntH (w : Width) (v : Word)
  /-- `GBA_DMA2_ENABLE`, R494: 0x040000D2, bit 15 = 1. -/
  | gbaDma2Enable (ctl : BitVec 15)
  /-- `GBA_DMA2_DISABLE`, R508: 0x040000D2, bit 15 = 0. -/
  | gbaDma2Disable (ctl : BitVec 15)
  /-- `GBA_DMA2_READ`, R492: 0x040000C8 + off. -/
  | gbaDma2Read (off : Fin 12) (w : Width)
  /-- `GBA_DMA3_SAD`, R491: 0x040000D4. -/
  | gbaDma3Sad (w : Width) (v : Word)
  /-- `GBA_DMA3_DAD`, R491: 0x040000D8. -/
  | gbaDma3Dad (w : Width) (v : Word)
  /-- `GBA_DMA3_CNT_L`, R491: 0x040000DC. -/
  | gbaDma3CntL (w : Width) (v : Word)
  /-- `GBA_DMA3_CNT_H`, R491: 0x040000DE. -/
  | gbaDma3CntH (w : Width) (v : Word)
  /-- `GBA_DMA3_ENABLE`, R494: 0x040000DE, bit 15 = 1. -/
  | gbaDma3Enable (ctl : BitVec 15)
  /-- `GBA_DMA3_DISABLE`, R508: 0x040000DE, bit 15 = 0. -/
  | gbaDma3Disable (ctl : BitVec 15)
  /-- `GBA_DMA3_READ`, R492: 0x040000D4 + off. -/
  | gbaDma3Read (off : Fin 12) (w : Width)
  /-- `BATTERY_RAM_READ`, R323: 0x0E000000 + a. -/
  | batteryRamRead (a : BitVec 25) (w : Width)
  /-- `BATTERY_RAM_WRITE`, R324: 0x0E000000 + a. -/
  | batteryRamWrite (a : BitVec 25) (w : Width) (v : Word)
  /-- `STORAGE_SNIFF`, R565: 0x0E000000 + a; a read, or a write of v. -/
  | storageSniff (a : BitVec 25) (w : Width) (v : Option Word)
  /-- `EEPROM_BIT_WRITE`, R331: 0x0D000000 + a, by DMA(k). -/
  | eepromBitWrite (k : Chan) (a : BitVec 24) (d : Half)
  /-- `EEPROM_DRAIN_READ`, R339: 0x0D000000 + a. -/
  | eepromDrainRead (m : Master) (a : BitVec 24) (w : Width)
  /-- `EEPROM_CPU_WRITE`, R344: 0x0D000000 + a, by the CPU. -/
  | eepromCpuWrite (a : BitVec 24) (w : Width) (v : Word)
  /-- `EEPROM_SNIFF`, R566: 0x0D000000 + a, by DMA(k). -/
  | eepromSniff (k : Chan) (a : BitVec 24) (d : Half)
  /-- `FLASH_READ`, R380: 0x0E000000 + a. -/
  | flashRead (a : BitVec 25) (w : Width)
  /-- `FLASH_ID_MANUF`, R380: offset 0x0000. -/
  | flashIdManuf (hi : BitVec 9) (w : Width)
  /-- `FLASH_ID_DEVICE`, R380: offset 0x0001. -/
  | flashIdDevice (hi : BitVec 9) (w : Width)
  /-- `FLASH_UNLOCK1`, R374: 0x5555, 0xAA. -/
  | flashUnlock1
  /-- `FLASH_UNLOCK2`, R375: 0x2AAA, 0x55. -/
  | flashUnlock2
  /-- `FLASH_ID_ENTER`, R376: 0x5555, 0x90. -/
  | flashIdEnter
  /-- `FLASH_ID_EXIT`, R376: 0x5555, 0xF0. -/
  | flashIdExit
  /-- `FLASH_ERASE`, R376: 0x5555, 0x80. -/
  | flashErase
  /-- `FLASH_ERASE_CHIP`, R376: 0x5555, 0x10. -/
  | flashEraseChip
  /-- `FLASH_ERASE_SECTOR`, R376: any offset, 0x30. -/
  | flashEraseSector (o : Half)
  /-- `FLASH_PROGRAM`, R376: 0x5555, 0xA0. -/
  | flashProgram
  /-- `FLASH_BANK`, R376: 0x5555, 0xB0. -/
  | flashBank
  /-- `FLASH_PROGRAM_DATA`, R377. -/
  | flashProgramData (o : Half) (v : Byte)
  /-- `FLASH_BANK_DATA`, R377: offset 0x0000. -/
  | flashBankData (v : Byte)
  /-- `FLASH_UNRECOGNIZED`, R387. -/
  | flashUnrecognized (o : Half) (v : Byte)
  /-- `EEPROM_READ6`, R337. -/
  | eepromRead6 (x : BitVec 6) (stop : Option Bool)
  /-- `EEPROM_READ14`, R337. -/
  | eepromRead14 (x : BitVec 14) (stop : Option Bool)
  /-- `EEPROM_WRITE6`, R338. -/
  | eepromWrite6 (x : BitVec 6) (d : BitVec 64) (stop : Option Bool)
  /-- `EEPROM_WRITE14`, R338. -/
  | eepromWrite14 (x : BitVec 14) (d : BitVec 64) (stop : Option Bool)
  deriving DecidableEq, Repr

end Sys2Proof
end

