-- ==== Sys2Proof/WellFormed.lean ====
section
/-! DEFINITION. Which terms of `Instr` are operations the block's formats can carry. -/
namespace Sys2Proof

/-- The low byte of each address of the I/O block 0xFF00-0xFF7F that the block owns (R50). -/
def ownedIo : List (BitVec 7) :=
  [0x46, 0x4F, 0x50, 0x51, 0x52, 0x53, 0x54, 0x55, 0x70]

/-- The cycle count of `TICK` fits the 64-bit field the model carries it in (log 5). -/
def tickFits (c : Int) : Bool := decide (-2 ^ 63 ≤ c) && decide (c < 2 ^ 63)

/-- `GB_IO_FORWARD_READ` is the read of an address the block does not own (R229). -/
def forwardable (a : BitVec 7) : Bool := !(ownedIo.contains a)

/-- Every other operand is held to its encoding's range by its type. -/
def Instr.wellFormed : Instr → Bool
  | .tick c => tickFits c
  | .gbIoForwardRead a => forwardable a
  | _ => true

end Sys2Proof
end

