-- ==== Sys2Proof/Decode.lean ====
section
/-! DEFINITION. The decoder, total on any frame and rejecting by name, and after it the encoder.
The words are those of spec/opcode_table.json (30_encoding.md R176 to R187): `gbWrite` is
`addr[15:0] ++ data[7:0]`, `gbRead` a 16-bit address, `gbaIo` a 32-bit address, `flashCmd`
`offset[15:0] ++ data[7:0]`, `eepromStream` the bits of R181. A word is stored lowest byte first.
DESIGN CHOICE (log 4): what the table gives a row outside its word (its `fields`: the family, the
variant, the width, the master, the value) stands in the bytes after the word, one of them a selector
among the rows that share the word. Every word is an access of the bus (R185, R186), so one that belongs
to no row, or whose selector names none of its rows, is the plain access of that address. The `call` rows
have no word in the table; the model carries the tuple of R170. -/
namespace Sys2Proof

/-- Why a frame is no operation. -/
inductive DecodeError
  /-- A `read` or `write` call whose width is not 1, 2 or 4; `cpu` says whether the CPU issues it. -/
  | badWidth (cpu : Bool)
  /-- A call name, kind, master, event or generation outside the lists of R170. -/
  | badOperand
  /-- The frame has not the length of its format, so it carries no call's operands (R170). -/
  | badLength
  /-- The bits of a stream that match no EEPROM command pattern of R181: a stream all the same, which
  the device discards (R183, R345). -/
  | badStream (l : List Bool)
  deriving DecidableEq, Repr

/-! ### Fields -/

/-- The low byte of a halfword. -/
def loByte (x : Half) : Byte := x.setWidth 8

/-- The high byte of a halfword. -/
def hiByte (x : Half) : Byte := x.extractLsb' 8 8

/-- A 16-bit word, lowest byte first. -/
def le16 (x : Half) : List Byte := [loByte x, hiByte x]

/-- A 32-bit word, lowest byte first. -/
def le32 (x : Word) : List Byte :=
  [x.setWidth 8, x.extractLsb' 8 8, x.extractLsb' 16 8, x.extractLsb' 24 8]

/-- A 64-bit value, lowest byte first. -/
def le64 (x : BitVec 64) : List Byte := le32 (x.setWidth 32) ++ le32 (x.extractLsb' 32 32)

/-- The halfword of two bytes, lowest first. -/
def half (b0 b1 : Byte) : Half := b1 ++ b0

/-- The word of four bytes, lowest first. -/
def word (b0 b1 b2 b3 : Byte) : Word := half b2 b3 ++ half b0 b1

/-- The channel numbered `k`. -/
def Chan.ofNat? : Nat → Option Chan
  | 0 => some .c0
  | 1 => some .c1
  | 2 => some .c2
  | 3 => some .c3
  | _ => none

/-- The number of a channel. -/
def Chan.toNat : Chan → Nat
  | .c0 => 0
  | .c1 => 1
  | .c2 => 2
  | .c3 => 3

/-- The code of a master: 0 the CPU, 1 `oam`, 2 `vdma`, 4 to 7 the channels (log 4). -/
def Master.code : Master → Byte
  | .cpu => 0
  | .oam => 1
  | .vdma => 2
  | .chan k => BitVec.ofNat 8 (4 + k.toNat)

/-- The master of a code. -/
def Master.ofCode (b : Byte) : Option Master :=
  if b = 0 then some .cpu
  else if b = 1 then some .oam
  else if b = 2 then some .vdma
  else if b < 4 then none
  else (Chan.ofNat? (b.toNat - 4)).map .chan

/-- The code of an access kind. -/
def AccessKind.code : AccessKind → Byte
  | .fetch => 1
  | .data => 0

/-- The kind of a code. -/
def AccessKind.ofCode (b : Byte) : Option AccessKind :=
  if b = 0 then some .data else if b = 1 then some .fetch else none

/-- The code of a width in a `gbaIo` frame. -/
def Width.code : Width → Byte
  | .b1 => 0
  | .b2 => 1
  | .b4 => 2

/-- The width of a code. -/
def Width.ofCode (b : Byte) : Option Width :=
  if b = 0 then some .b1 else if b = 1 then some .b2 else if b = 2 then some .b4 else none

/-- The code of a Boolean operand. -/
def boolCode (b : Bool) : Byte := if b then 1 else 0

/-! ### Format `call` (R170) -/

/-- `read(master, kind, addr, n)`. -/
def decodeReadCall : List Byte → Except DecodeError Instr
  | [n, k, m, a0, a1, a2, a3] =>
    match AccessKind.ofCode k, Master.ofCode m with
    | some k, some m =>
      if n = 1 then .ok (.busRead8 m k (word a0 a1 a2 a3))
      else if n = 2 then .ok (.busRead16 m k (word a0 a1 a2 a3))
      else if n = 4 then .ok (.busRead32 m k (word a0 a1 a2 a3))
      else .error (.badWidth (m == .cpu))
    | _, _ => .error .badOperand
  | _ => .error .badLength

/-- `write(master, addr, n, value)`. -/
def decodeWriteCall : List Byte → Except DecodeError Instr
  | [n, m, a0, a1, a2, a3, v0, v1, v2, v3] =>
    match Master.ofCode m with
    | some m =>
      if n = 1 then .ok (.busWrite8 m (word a0 a1 a2 a3) v0)
      else if n = 2 then .ok (.busWrite16 m (word a0 a1 a2 a3) (half v0 v1))
      else if n = 4 then .ok (.busWrite32 m (word a0 a1 a2 a3) (word v0 v1 v2 v3))
      else .error (.badWidth (m == .cpu))
    | none => .error .badOperand
  | _ => .error .badLength

/-- `tick(cycles)`: 64 bits, two's complement. -/
def decodeTickCall : List Byte → Except DecodeError Instr
  | [c0, c1, c2, c3, c4, c5, c6, c7] =>
    .ok (.tick (word c4 c5 c6 c7 ++ word c0 c1 c2 c3 : BitVec 64).toInt)
  | _ => .error .badLength

/-- `Trigger(event)`. -/
def decodeTriggerCall : List Byte → Except DecodeError Instr
  | [e] =>
    if e = 0 then .ok .triggerVblank
    else if e = 1 then .ok .triggerHblank
    else if e = 2 then .ok .triggerFifoa
    else if e = 3 then .ok .triggerFifob
    else .error .badOperand
  | _ => .error .badLength

/-- The `load` row of a generation. -/
def loadRow (g : Byte) (f : SaveFile) : Except DecodeError Instr :=
  if g = 1 then .ok (.loadGen1 f) else if g = 2 then .ok (.loadGen2 f) else .error .badOperand

/-- `load(file)` (R175). -/
def decodeLoadCall : List Byte → Except DecodeError Instr
  | g :: t :: l =>
    if t = 1 then loadRow g (.bytes l)
    else if l ≠ [] then .error .badLength
    else if t = 0 then loadRow g .absent
    else if t = 2 then loadRow g .unreadable
    else .error .badOperand
  | _ => .error .badLength

/-- `serialize()`, and whether the host can write the file (R569). -/
def decodeSerializeCall : List Byte → Except DecodeError Instr
  | [g, w] =>
    if w = 0 ∨ w = 1 then
      if g = 1 then .ok (.serializeGen1 (w == 1))
      else if g = 2 then .ok (.serializeGen2 (w == 1))
      else .error .badOperand
    else .error .badOperand
  | _ => .error .badLength

/-- The calls, told apart by a code for the call's name. -/
def decodeCall : List Byte → Except DecodeError Instr
  | op :: l =>
    if op = 0 then decodeReadCall l
    else if op = 1 then decodeWriteCall l
    else if op = 2 then decodeTickCall l
    else if op = 3 then decodeTriggerCall l
    else if op = 4 then decodeLoadCall l
    else if op = 5 then decodeSerializeCall l
    else .error .badOperand
  | [] => .error .badLength

/-! ### Format `gb_write` -/

/-- The plain CPU write of a generation-1 address (R185 `W8`). -/
def plainWrite1 (a : Half) (v : Byte) : Instr := .busWrite8 .cpu (a.setWidth 32) v

/-- Family A's control registers (R178), by a[14:13]. -/
def controlA (a : Half) (v : Byte) : Instr :=
  if a.extractLsb' 13 2 = 0 then .aRamg (a.setWidth 13) v
  else if a.extractLsb' 13 2 = 1 then .aRomb0 (a.setWidth 13) v
  else if a.extractLsb' 13 2 = 2 then .aRamb (a.setWidth 13) v
  else .aMode (a.setWidth 13) v

/-- Family B's control registers (R178), by a[14] and a[8]. -/
def controlB (a : Half) (v : Byte) : Instr :=
  if a.extractLsb' 14 1 = 1 then .bIgnored (a.setWidth 14) v
  else if a.extractLsb' 8 1 = 0 then .bRamg (a.extractLsb' 9 5) (loByte a) v
  else .bRomb (a.extractLsb' 9 5) (loByte a) v

/-- Family C's control registers (R178), by a[14:13]. -/
def controlC (a : Half) (v : Byte) : Instr :=
  if a.extractLsb' 13 2 = 0 then .cRamg (a.setWidth 13) v
  else if a.extractLsb' 13 2 = 1 then .cRomb (a.setWidth 13) v
  else if a.extractLsb' 13 2 = 2 then .cRamb (a.setWidth 13) v
  else .cLatch (a.setWidth 13) v

/-- Family D's control registers (R178), by a[14:12]. -/
def controlD (a : Half) (v : Byte) : Instr :=
  if a.extractLsb' 13 2 = 0 then .dRamg (a.setWidth 13) v
  else if a.extractLsb' 12 3 = 2 then .dRomb0 (a.setWidth 12) v
  else if a.extractLsb' 12 3 = 3 then .dRomb1 (a.setWidth 12) v
  else if a.extractLsb' 13 2 = 2 then .dRamb (a.setWidth 13) v
  else .dIgnored (a.setWidth 13) v

/-- A write of 0x0000-0x7FFF; the selector is the family. -/
def decodeControl (a : Half) (v sel : Byte) : Except DecodeError Instr :=
  if sel = 0 then .ok (controlA a v)
  else if sel = 1 then .ok (controlB a v)
  else if sel = 2 then .ok (controlC a v)
  else if sel = 3 then .ok (controlD a v)
  else if sel = 4 then .ok (.noneIgnored (a.setWidth 15) v)
  else .ok (plainWrite1 a v)

/-- A write of 0xA000-0xBFFF; the selector tells the RAM from the RTC registers. -/
def decodeCartWrite (a : BitVec 13) (v sel : Byte) : Except DecodeError Instr :=
  if sel = 0 then .ok (.cartRamWrite a v)
  else if sel = 1 then .ok (.rtcWriteS a v)
  else if sel = 2 then .ok (.rtcWriteM a v)
  else if sel = 3 then .ok (.rtcWriteH a v)
  else if sel = 4 then .ok (.rtcWriteDl a v)
  else if sel = 5 then .ok (.rtcWriteDh a v)
  else .ok (plainWrite1 (5#3 ++ a) v)

/-- A write of 0xFF55 (R177): bit 7 is MODE; the selector tells the rows of an hblank transfer in
progress. -/
def decodeHdma5 (v sel : Byte) : Except DecodeError Instr :=
  if v.extractLsb' 7 1 = 0 then
    if sel = 0 then .ok (.gbHdma5Gdma (v.setWidth 7))
    else if sel = 1 then .ok (.gbHdma5Cancel (v.setWidth 7))
    else .ok (plainWrite1 0xFF55 v)
  else
    if sel = 0 then .ok (.gbHdma5Hdma (v.setWidth 7))
    else if sel = 1 then .ok (.gbHdma5Restart (v.setWidth 7))
    else .ok (plainWrite1 0xFF55 v)

/-- The row of a one-row word, which has the selector 0, else the plain access `plain`. -/
def onlyRow (sel : Byte) (i plain : Instr) : Except DecodeError Instr :=
  if sel = 0 then .ok i else .ok plain

/-- A write of 0xFF00-0xFFFF: the registers of R176. -/
def decodeIoWrite (lo v sel : Byte) : Except DecodeError Instr :=
  if lo = 0x46 then onlyRow sel (.gbDmaWrite v) (plainWrite1 (0xFF#8 ++ lo) v)
  else if lo = 0x4F then onlyRow sel (.gbVbkWrite v) (plainWrite1 (0xFF#8 ++ lo) v)
  else if lo = 0x50 then onlyRow sel (.gbBootWrite v) (plainWrite1 (0xFF#8 ++ lo) v)
  else if lo = 0x51 then onlyRow sel (.gbHdma1 v) (plainWrite1 (0xFF#8 ++ lo) v)
  else if lo = 0x52 then onlyRow sel (.gbHdma2 v) (plainWrite1 (0xFF#8 ++ lo) v)
  else if lo = 0x53 then onlyRow sel (.gbHdma3 v) (plainWrite1 (0xFF#8 ++ lo) v)
  else if lo = 0x54 then onlyRow sel (.gbHdma4 v) (plainWrite1 (0xFF#8 ++ lo) v)
  else if lo = 0x55 then decodeHdma5 v sel
  else if lo = 0x70 then onlyRow sel (.gbSvbkWrite v) (plainWrite1 (0xFF#8 ++ lo) v)
  else .ok (plainWrite1 (0xFF#8 ++ lo) v)

/-- `gb_write`: the data byte, the address, the selector. -/
def decodeGbWrite : List Byte → Except DecodeError Instr
  | [v, lo, hi, sel] =>
    if hi.extractLsb' 7 1 = 0 then decodeControl (half lo hi) v sel
    else if hi.extractLsb' 5 3 = 5 then decodeCartWrite ((half lo hi).setWidth 13) v sel
    else if hi = 0xFF then decodeIoWrite lo v sel
    else .ok (plainWrite1 (half lo hi) v)
  | _ => .error .badLength

/-! ### Format `gb_read` -/

/-- The plain CPU read of a generation-1 address (R185 `RD8`). -/
def plainRead1 (a : Half) : Instr := .busRead8 .cpu .data (a.setWidth 32)

/-- A read of 0xFF00-0xFF7F (R176, R229). -/
def decodeIoRead (lo : BitVec 7) : Instr :=
  if lo = 0x46 then .gbDmaRead
  else if lo = 0x4F then .gbVbkRead
  else if lo = 0x50 then .gbBootRead
  else if lo = 0x51 then .gbHdma1Read
  else if lo = 0x52 then .gbHdma2Read
  else if lo = 0x53 then .gbHdma3Read
  else if lo = 0x54 then .gbHdma4Read
  else if lo = 0x55 then .gbHdma5Read
  else if lo = 0x70 then .gbSvbkRead
  else .gbIoForwardRead lo

/-- A read of 0x0000-0x7FFF: the common read path (R268), or a family's mapping row. -/
def decodeRomRead (a : Half) (sel : Byte) : Except DecodeError Instr :=
  if sel = 0 then
    if a.extractLsb' 14 1 = 0 then .ok (.romReadLow (a.setWidth 14))
    else .ok (.romReadHigh (a.setWidth 14))
  else if sel = 1 then .ok (.aRomMap (a.setWidth 15))
  else if sel = 2 then .ok (.bRomMap (a.setWidth 15))
  else if sel = 3 then .ok (.cRomMap (a.setWidth 15))
  else if sel = 4 then .ok (.dRomMap (a.setWidth 15))
  else .ok (plainRead1 a)

/-- A read of 0xA000-0xBFFF: the common read path (R305), a family's mapping row, or the RTC. -/
def decodeCartRead (a : BitVec 13) (sel : Byte) : Except DecodeError Instr :=
  if sel = 0 then .ok (.cartRamRead a)
  else if sel = 1 then .ok (.aRamMap a)
  else if sel = 2 then .ok (.bRamMap a)
  else if sel = 3 then .ok (.cRamMap a)
  else if sel = 4 then .ok (.rtcRead a)
  else .ok (plainRead1 (5#3 ++ a))

/-- `gb_read`: the address, the selector. -/
def decodeGbRead : List Byte → Except DecodeError Instr
  | [lo, hi, sel] =>
    if hi.extractLsb' 7 1 = 0 then decodeRomRead (half lo hi) sel
    else if hi.extractLsb' 5 3 = 5 then decodeCartRead ((half lo hi).setWidth 13) sel
    else if hi = 0xFF ∧ lo.extractLsb' 7 1 = 0 then
      onlyRow sel (decodeIoRead (lo.setWidth 7)) (plainRead1 (half lo hi))
    else .ok (plainRead1 (half lo hi))
  | _ => .error .badLength

/-! ### Format `gba_io` -/

/-- The Sad row of a channel. -/
def sadRow : Chan → Width → Word → Instr
  | .c0, w, v => .gbaDma0Sad w v
  | .c1, w, v => .gbaDma1Sad w v
  | .c2, w, v => .gbaDma2Sad w v
  | .c3, w, v => .gbaDma3Sad w v

/-- The Dad row of a channel. -/
def dadRow : Chan → Width → Word → Instr
  | .c0, w, v => .gbaDma0Dad w v
  | .c1, w, v => .gbaDma1Dad w v
  | .c2, w, v => .gbaDma2Dad w v
  | .c3, w, v => .gbaDma3Dad w v

/-- The CntL row of a channel. -/
def cntLRow : Chan → Width → Word → Instr
  | .c0, w, v => .gbaDma0CntL w v
  | .c1, w, v => .gbaDma1CntL w v
  | .c2, w, v => .gbaDma2CntL w v
  | .c3, w, v => .gbaDma3CntL w v

/-- The CntH row of a channel. -/
def cntHRow : Chan → Width → Word → Instr
  | .c0, w, v => .gbaDma0CntH w v
  | .c1, w, v => .gbaDma1CntH w v
  | .c2, w, v => .gbaDma2CntH w v
  | .c3, w, v => .gbaDma3CntH w v

/-- The Enable row of a channel. -/
def enableRow : Chan → BitVec 15 → Instr
  | .c0, ctl => .gbaDma0Enable ctl
  | .c1, ctl => .gbaDma1Enable ctl
  | .c2, ctl => .gbaDma2Enable ctl
  | .c3, ctl => .gbaDma3Enable ctl

/-- The Disable row of a channel. -/
def disableRow : Chan → BitVec 15 → Instr
  | .c0, ctl => .gbaDma0Disable ctl
  | .c1, ctl => .gbaDma1Disable ctl
  | .c2, ctl => .gbaDma2Disable ctl
  | .c3, ctl => .gbaDma3Disable ctl

/-- The Read row of a channel. -/
def dmaReadRow : Chan → Fin 12 → Width → Instr
  | .c0, off, w => .gbaDma0Read off w
  | .c1, off, w => .gbaDma1Read off w
  | .c2, off, w => .gbaDma2Read off w
  | .c3, off, w => .gbaDma3Read off w

/-- The plain access of a generation-2 address: with an even selector the read, else the write (log 4). -/
def plainAccess (m : Master) (w : Width) (v a : Word) (sel : Byte) : Instr :=
  match sel.getLsbD 0, w with
  | false, .b1 => .busRead8 m .data a
  | false, .b2 => .busRead16 m .data a
  | false, .b4 => .busRead32 m .data a
  | true, .b1 => .busWrite8 m a (v.setWidth 8)
  | true, .b2 => .busWrite16 m a (v.setWidth 16)
  | true, .b4 => .busWrite32 m a v

/-- The plain access of the master whose code is `m`; a code of no master is no operand (R170). -/
def plainFrame (m : Byte) (w : Width) (v a : Word) (sel : Byte) : Except DecodeError Instr :=
  match Master.ofCode m with
  | some m => .ok (plainAccess m w v a sel)
  | none => .error .badOperand

/-- The rows at offset `off` of channel `k`'s registers (R51). The selector: 0 the register written,
or at an offset where none starts the read; 1 the read; 2 and 3 the enable and the disable; `plain` is
the access where it names none of them. -/
def decodeDmaReg (k : Chan) (off : Fin 12) (sel : Byte) (w : Width) (v : Word)
    (plain : Except DecodeError Instr) : Except DecodeError Instr :=
  if sel = 0 then
    if off = 0 then .ok (sadRow k w v)
    else if off = 4 then .ok (dadRow k w v)
    else if off = 8 then .ok (cntLRow k w v)
    else if off = 10 then .ok (cntHRow k w v)
    else .ok (dmaReadRow k off w)
  else if sel = 1 then .ok (dmaReadRow k off w)
  else if sel = 2 ∧ off = 10 then .ok (enableRow k (v.setWidth 15))
  else if sel = 3 ∧ off = 10 then .ok (disableRow k (v.setWidth 15))
  else plain

/-- The rows of the EEPROM's address page 0x0D. `m` is the master's code; in the rows of a DMA write
it is the channel's number. -/
def decodeEepromPage (a : BitVec 24) (sel : Byte) (w : Width) (m : Byte) (v : Word) :
    Except DecodeError Instr :=
  if sel = 0 then
    match Chan.ofNat? m.toNat with
    | some k => .ok (.eepromBitWrite k a (v.setWidth 16))
    | none => .error .badOperand
  else if sel = 1 then
    match Master.ofCode m with
    | some m => .ok (.eepromDrainRead m a w)
    | none => .error .badOperand
  else if sel = 2 then .ok (.eepromCpuWrite a w v)
  else if sel = 3 then
    match Chan.ofNat? m.toNat with
    | some k => .ok (.eepromSniff k a (v.setWidth 16))
    | none => .error .badOperand
  else plainFrame m w v (0x0D#8 ++ a) sel

/-- The rows of the storage window 0x0E000000-0x0FFFFFFF. -/
def decodeStoragePage (a : BitVec 25) (sel : Byte) (w : Width) (m : Byte) (v : Word) :
    Except DecodeError Instr :=
  if sel = 0 then .ok (.batteryRamRead a w)
  else if sel = 1 then .ok (.batteryRamWrite a w v)
  else if sel = 2 then .ok (.storageSniff a w none)
  else if sel = 3 then .ok (.storageSniff a w (some v))
  else if sel = 4 then .ok (.flashRead a w)
  else if sel = 5 ∧ a.setWidth 16 = 0#16 then .ok (.flashIdManuf (a.extractLsb' 16 9) w)
  else if sel = 6 ∧ a.setWidth 16 = 1#16 then .ok (.flashIdDevice (a.extractLsb' 16 9) w)
  else plainFrame m w v (7#7 ++ a) sel

/-- The channel and the offset of a DMA register address (R51): low byte 0xB0 to 0xDF. -/
def dmaRegOf (lo : Byte) : Option (Chan × Fin 12) :=
  (Chan.ofNat? ((lo.toNat - 0xB0) / 12)).map fun k => (k, Fin.ofNat 12 ((lo.toNat - 0xB0) % 12))

/-- The rows of the generation-2 I/O block that the block owns: 0x040000B0-0x040000DF. At every other
address the access is the plain one. -/
def decodeDmaPage (a : Word) (sel : Byte) (w : Width) (m : Byte) (v : Word) :
    Except DecodeError Instr :=
  if a.extractLsb' 8 24 = 0x040000#24 ∧ 0xB0#8 ≤ a.setWidth 8 then
    match dmaRegOf (a.setWidth 8) with
    | some (k, off) => decodeDmaReg k off sel w v (plainFrame m w v a sel)
    | none => plainFrame m w v a sel
  else plainFrame m w v a sel

/-- `gba_io`: the address, the selector, the width, the master, the value. -/
def decodeGbaIo : List Byte → Except DecodeError Instr
  | [a0, a1, a2, a3, sel, w, m, v0, v1, v2, v3] =>
    match Width.ofCode w with
    | none => .error (.badWidth (m == 0))
    | some w =>
      if a3 = 0x0D then
        decodeEepromPage ((word a0 a1 a2 a3).setWidth 24) sel w m (word v0 v1 v2 v3)
      else if a3.extractLsb' 1 7 = 7 then
        decodeStoragePage ((word a0 a1 a2 a3).setWidth 25) sel w m (word v0 v1 v2 v3)
      else decodeDmaPage (word a0 a1 a2 a3) sel w m (word v0 v1 v2 v3)
  | _ => .error .badLength

/-! ### Format `flash_cmd` (R182) -/

/-- The rows whose word is whole. -/
def exactFlash (o : Half) (v : Byte) : Option Instr :=
  if o = 0x5555 then
    if v = 0xAA then some .flashUnlock1
    else if v = 0x90 then some .flashIdEnter
    else if v = 0xF0 then some .flashIdExit
    else if v = 0x80 then some .flashErase
    else if v = 0x10 then some .flashEraseChip
    else if v = 0xA0 then some .flashProgram
    else if v = 0xB0 then some .flashBank
    else none
  else if o = 0x2AAA ∧ v = 0x55 then some .flashUnlock2
  else none

/-- `flash_cmd`: the data byte, the offset, the selector. With the selector 0 the row with the most
fixed bits is meant; a selector that names no row gives the plain write (R186 `W14`). -/
def decodeFlash : List Byte → Except DecodeError Instr
  | [v, o0, o1, sel] =>
    if sel = 0 then
      match exactFlash (half o0 o1) v with
      | some i => .ok i
      | none =>
        if half o0 o1 = 0 then .ok (.flashBankData v)
        else if v = 0x30 then .ok (.flashEraseSector (half o0 o1))
        else .ok (.flashProgramData (half o0 o1) v)
    else if sel = 1 then .ok (.flashProgramData (half o0 o1) v)
    else if sel = 2 ∧ half o0 o1 = 0 then .ok (.flashBankData v)
    else if sel = 3 then .ok (.flashUnrecognized (half o0 o1) v)
    else if sel = 4 ∧ v = 0x30 then .ok (.flashEraseSector (half o0 o1))
    else .ok (.busWrite8 .cpu (0x0E00#16 ++ half o0 o1) v)
  | _ => .error .badLength

/-! ### Format `eeprom_stream` (R181) -/

/-- The value of bits that come most significant first. -/
def bitsToNat (l : List Bool) : Nat := l.foldl (fun n b => 2 * n + b.toNat) 0

/-- The bits of a value, most significant first. -/
def msbBits {w : Nat} (x : BitVec w) : List Bool := (List.range w).map fun i => x.getMsbD i

/-- A frame carries one stream bit in each byte. -/
def bitOf (b : Byte) : Bool := b.getLsbD 0

/-- The rows of a stream without its stop bit; `all` is the whole stream. -/
def streamRow (all l : List Bool) (stop : Option Bool) : Except DecodeError Instr :=
  match l with
  | true :: true :: r =>
    if r.length = 6 then .ok (.eepromRead6 (BitVec.ofNat 6 (bitsToNat r)) stop)
    else if r.length = 14 then .ok (.eepromRead14 (BitVec.ofNat 14 (bitsToNat r)) stop)
    else .error (.badStream all)
  | true :: false :: r =>
    if r.length = 70 then
      .ok (.eepromWrite6 (BitVec.ofNat 6 (bitsToNat (r.take 6)))
        (BitVec.ofNat 64 (bitsToNat (r.drop 6))) stop)
    else if r.length = 78 then
      .ok (.eepromWrite14 (BitVec.ofNat 14 (bitsToNat (r.take 14)))
        (BitVec.ofNat 64 (bitsToNat (r.drop 14))) stop)
    else .error (.badStream all)
  | _ => .error (.badStream all)

/-- `eeprom_stream`: the bits b0, b1, ... (R181); a length of 9, 17, 73 or 81 has the stop bit. -/
def decodeStream (l : List Byte) : Except DecodeError Instr :=
  if l.length = 9 ∨ l.length = 17 ∨ l.length = 73 ∨ l.length = 81 then
    streamRow (l.map bitOf) ((l.map bitOf).dropLast) ((l.map bitOf).getLast?)
  else streamRow (l.map bitOf) (l.map bitOf) none

/-! ### The decoder -/

/-- The operation a frame encodes. -/
def decode (f : Frame) : Except DecodeError Instr :=
  match f.fmt with
  | .call => decodeCall f.bytes
  | .gbWrite => decodeGbWrite f.bytes
  | .gbRead => decodeGbRead f.bytes
  | .gbaIo => decodeGbaIo f.bytes
  | .flashCmd => decodeFlash f.bytes
  | .eepromStream => decodeStream f.bytes

/-! ### The encoder -/

/-- A `call` frame. -/
def callFrame (l : List Byte) : Frame := { fmt := .call, bytes := l }

/-- A `gb_write` frame (R187). -/
def gbWriteFrame (a : Half) (v sel : Byte) : Frame :=
  { fmt := .gbWrite, bytes := [v, loByte a, hiByte a, sel] }

/-- A `gb_read` frame (R187). -/
def gbReadFrame (a : Half) (sel : Byte) : Frame :=
  { fmt := .gbRead, bytes := [loByte a, hiByte a, sel] }

/-- A `gba_io` frame (R187). -/
def gbaIoFrame (a : Word) (sel : Byte) (w : Width) (m : Byte) (v : Word) : Frame :=
  { fmt := .gbaIo, bytes := le32 a ++ [sel, w.code, m] ++ le32 v }

/-- A `flash_cmd` frame (R187). -/
def flashFrame (o : Half) (v sel : Byte) : Frame :=
  { fmt := .flashCmd, bytes := [v, loByte o, hiByte o, sel] }

/-- An `eeprom_stream` frame (R187). -/
def streamFrame (l : List Bool) : Frame :=
  { fmt := .eepromStream, bytes := l.map boolCode }

/-- The bits of a read request (R181). -/
def readBits {w : Nat} (x : BitVec w) (stop : Option Bool) : List Bool :=
  [true, true] ++ msbBits x ++ stop.toList

/-- The bits of a write command (R181). -/
def writeBits {w : Nat} (x : BitVec w) (d : BitVec 64) (stop : Option Bool) : List Bool :=
  [true, false] ++ msbBits x ++ msbBits d ++ stop.toList

/-- The base address `B(k)` of a channel's registers (R51). -/
def dmaBase : Chan → Word
  | .c0 => 0x040000B0
  | .c1 => 0x040000BC
  | .c2 => 0x040000C8
  | .c3 => 0x040000D4

/-- The operand bytes of a `load` frame. -/
def saveFileBytes : SaveFile → List Byte
  | .absent => [0]
  | .bytes l => 1 :: l
  | .unreadable => [2]

/-- The frame of an operation. -/
def encode : Instr → Frame
  | .busRead8 m k a => callFrame ([0, 1, k.code, m.code] ++ le32 a)
  | .busRead16 m k a => callFrame ([0, 2, k.code, m.code] ++ le32 a)
  | .busRead32 m k a => callFrame ([0, 4, k.code, m.code] ++ le32 a)
  | .busWrite8 m a v => callFrame ([1, 1, m.code] ++ le32 a ++ [v, 0, 0, 0])
  | .busWrite16 m a v => callFrame ([1, 2, m.code] ++ le32 a ++ le16 v ++ [0, 0])
  | .busWrite32 m a v => callFrame ([1, 4, m.code] ++ le32 a ++ le32 v)
  | .tick c => callFrame (2 :: le64 (BitVec.ofInt 64 c))
  | .triggerVblank => callFrame [3, 0]
  | .triggerHblank => callFrame [3, 1]
  | .triggerFifoa => callFrame [3, 2]
  | .triggerFifob => callFrame [3, 3]
  | .loadGen1 f => callFrame (4 :: 1 :: saveFileBytes f)
  | .serializeGen1 writable => callFrame [5, 1, boolCode writable]
  | .loadGen2 f => callFrame (4 :: 2 :: saveFileBytes f)
  | .serializeGen2 writable => callFrame [5, 2, boolCode writable]
  | .gbDmaWrite v => gbWriteFrame 0xFF46 v 0
  | .gbVbkWrite v => gbWriteFrame 0xFF4F v 0
  | .gbBootWrite v => gbWriteFrame 0xFF50 v 0
  | .gbHdma1 v => gbWriteFrame 0xFF51 v 0
  | .gbHdma2 v => gbWriteFrame 0xFF52 v 0
  | .gbHdma3 v => gbWriteFrame 0xFF53 v 0
  | .gbHdma4 v => gbWriteFrame 0xFF54 v 0
  | .gbHdma5Gdma len => gbWriteFrame 0xFF55 (0#1 ++ len) 0
  | .gbHdma5Hdma len => gbWriteFrame 0xFF55 (1#1 ++ len) 0
  | .gbHdma5Cancel len => gbWriteFrame 0xFF55 (0#1 ++ len) 1
  | .gbHdma5Restart len => gbWriteFrame 0xFF55 (1#1 ++ len) 1
  | .gbSvbkWrite v => gbWriteFrame 0xFF70 v 0
  | .gbDmaRead => gbReadFrame 0xFF46 0
  | .gbVbkRead => gbReadFrame 0xFF4F 0
  | .gbBootRead => gbReadFrame 0xFF50 0
  | .gbHdma1Read => gbReadFrame 0xFF51 0
  | .gbHdma2Read => gbReadFrame 0xFF52 0
  | .gbHdma3Read => gbReadFrame 0xFF53 0
  | .gbHdma4Read => gbReadFrame 0xFF54 0
  | .gbHdma5Read => gbReadFrame 0xFF55 0
  | .gbSvbkRead => gbReadFrame 0xFF70 0
  | .gbIoForwardRead a => gbReadFrame (0b111111110#9 ++ a) 0
  | .aRamg a v => gbWriteFrame (0#3 ++ a) v 0
  | .aRomb0 a v => gbWriteFrame (1#3 ++ a) v 0
  | .aRamb a v => gbWriteFrame (2#3 ++ a) v 0
  | .aMode a v => gbWriteFrame (3#3 ++ a) v 0
  | .bRamg hi lo v => gbWriteFrame (0#2 ++ hi ++ 0#1 ++ lo) v 1
  | .bRomb hi lo v => gbWriteFrame (0#2 ++ hi ++ 1#1 ++ lo) v 1
  | .bIgnored a v => gbWriteFrame (1#2 ++ a) v 1
  | .cRamg a v => gbWriteFrame (0#3 ++ a) v 2
  | .cRomb a v => gbWriteFrame (1#3 ++ a) v 2
  | .cRamb a v => gbWriteFrame (2#3 ++ a) v 2
  | .cLatch a v => gbWriteFrame (3#3 ++ a) v 2
  | .dRamg a v => gbWriteFrame (0#3 ++ a) v 3
  | .dRomb0 a v => gbWriteFrame (2#4 ++ a) v 3
  | .dRomb1 a v => gbWriteFrame (3#4 ++ a) v 3
  | .dRamb a v => gbWriteFrame (2#3 ++ a) v 3
  | .dIgnored a v => gbWriteFrame (3#3 ++ a) v 3
  | .noneIgnored a v => gbWriteFrame (0#1 ++ a) v 4
  | .cartRamWrite a v => gbWriteFrame (5#3 ++ a) v 0
  | .rtcWriteS a v => gbWriteFrame (5#3 ++ a) v 1
  | .rtcWriteM a v => gbWriteFrame (5#3 ++ a) v 2
  | .rtcWriteH a v => gbWriteFrame (5#3 ++ a) v 3
  | .rtcWriteDl a v => gbWriteFrame (5#3 ++ a) v 4
  | .rtcWriteDh a v => gbWriteFrame (5#3 ++ a) v 5
  | .romReadLow a => gbReadFrame (0#2 ++ a) 0
  | .romReadHigh a => gbReadFrame (1#2 ++ a) 0
  | .aRomMap a => gbReadFrame (0#1 ++ a) 1
  | .bRomMap a => gbReadFrame (0#1 ++ a) 2
  | .cRomMap a => gbReadFrame (0#1 ++ a) 3
  | .dRomMap a => gbReadFrame (0#1 ++ a) 4
  | .cartRamRead a => gbReadFrame (5#3 ++ a) 0
  | .aRamMap a => gbReadFrame (5#3 ++ a) 1
  | .bRamMap a => gbReadFrame (5#3 ++ a) 2
  | .cRamMap a => gbReadFrame (5#3 ++ a) 3
  | .rtcRead a => gbReadFrame (5#3 ++ a) 4
  | .gbaDma0Sad w v => gbaIoFrame 0x040000B0 0 w 0 v
  | .gbaDma0Dad w v => gbaIoFrame 0x040000B4 0 w 0 v
  | .gbaDma0CntL w v => gbaIoFrame 0x040000B8 0 w 0 v
  | .gbaDma0CntH w v => gbaIoFrame 0x040000BA 0 w 0 v
  | .gbaDma0Enable ctl => gbaIoFrame 0x040000BA 2 .b2 0 ((1#1 ++ ctl).setWidth 32)
  | .gbaDma0Disable ctl => gbaIoFrame 0x040000BA 3 .b2 0 (ctl.setWidth 32)
  | .gbaDma0Read off w => gbaIoFrame (dmaBase .c0 + BitVec.ofNat 32 off.val) 1 w 0 0
  | .gbaDma1Sad w v => gbaIoFrame 0x040000BC 0 w 0 v
  | .gbaDma1Dad w v => gbaIoFrame 0x040000C0 0 w 0 v
  | .gbaDma1CntL w v => gbaIoFrame 0x040000C4 0 w 0 v
  | .gbaDma1CntH w v => gbaIoFrame 0x040000C6 0 w 0 v
  | .gbaDma1Enable ctl => gbaIoFrame 0x040000C6 2 .b2 0 ((1#1 ++ ctl).setWidth 32)
  | .gbaDma1Disable ctl => gbaIoFrame 0x040000C6 3 .b2 0 (ctl.setWidth 32)
  | .gbaDma1Read off w => gbaIoFrame (dmaBase .c1 + BitVec.ofNat 32 off.val) 1 w 0 0
  | .gbaDma2Sad w v => gbaIoFrame 0x040000C8 0 w 0 v
  | .gbaDma2Dad w v => gbaIoFrame 0x040000CC 0 w 0 v
  | .gbaDma2CntL w v => gbaIoFrame 0x040000D0 0 w 0 v
  | .gbaDma2CntH w v => gbaIoFrame 0x040000D2 0 w 0 v
  | .gbaDma2Enable ctl => gbaIoFrame 0x040000D2 2 .b2 0 ((1#1 ++ ctl).setWidth 32)
  | .gbaDma2Disable ctl => gbaIoFrame 0x040000D2 3 .b2 0 (ctl.setWidth 32)
  | .gbaDma2Read off w => gbaIoFrame (dmaBase .c2 + BitVec.ofNat 32 off.val) 1 w 0 0
  | .gbaDma3Sad w v => gbaIoFrame 0x040000D4 0 w 0 v
  | .gbaDma3Dad w v => gbaIoFrame 0x040000D8 0 w 0 v
  | .gbaDma3CntL w v => gbaIoFrame 0x040000DC 0 w 0 v
  | .gbaDma3CntH w v => gbaIoFrame 0x040000DE 0 w 0 v
  | .gbaDma3Enable ctl => gbaIoFrame 0x040000DE 2 .b2 0 ((1#1 ++ ctl).setWidth 32)
  | .gbaDma3Disable ctl => gbaIoFrame 0x040000DE 3 .b2 0 (ctl.setWidth 32)
  | .gbaDma3Read off w => gbaIoFrame (dmaBase .c3 + BitVec.ofNat 32 off.val) 1 w 0 0
  | .batteryRamRead a w => gbaIoFrame (7#7 ++ a) 0 w 0 0
  | .batteryRamWrite a w v => gbaIoFrame (7#7 ++ a) 1 w 0 v
  | .storageSniff a w none => gbaIoFrame (7#7 ++ a) 2 w 0 0
  | .storageSniff a w (some v) => gbaIoFrame (7#7 ++ a) 3 w 0 v
  | .eepromBitWrite k a d => gbaIoFrame (0x0D#8 ++ a) 0 .b2 (BitVec.ofNat 8 k.toNat) (d.setWidth 32)
  | .eepromDrainRead m a w => gbaIoFrame (0x0D#8 ++ a) 1 w m.code 0
  | .eepromCpuWrite a w v => gbaIoFrame (0x0D#8 ++ a) 2 w 0 v
  | .eepromSniff k a d => gbaIoFrame (0x0D#8 ++ a) 3 .b2 (BitVec.ofNat 8 k.toNat) (d.setWidth 32)
  | .flashRead a w => gbaIoFrame (7#7 ++ a) 4 w 0 0
  | .flashIdManuf hi w => gbaIoFrame (7#7 ++ hi ++ 0#16) 5 w 0 0
  | .flashIdDevice hi w => gbaIoFrame (7#7 ++ hi ++ 1#16) 6 w 0 0
  | .flashUnlock1 => flashFrame 0x5555 0xAA 0
  | .flashUnlock2 => flashFrame 0x2AAA 0x55 0
  | .flashIdEnter => flashFrame 0x5555 0x90 0
  | .flashIdExit => flashFrame 0x5555 0xF0 0
  | .flashErase => flashFrame 0x5555 0x80 0
  | .flashEraseChip => flashFrame 0x5555 0x10 0
  | .flashEraseSector o => flashFrame o 0x30 4
  | .flashProgram => flashFrame 0x5555 0xA0 0
  | .flashBank => flashFrame 0x5555 0xB0 0
  | .flashProgramData o v => flashFrame o v 1
  | .flashBankData v => flashFrame 0 v 2
  | .flashUnrecognized o v => flashFrame o v 3
  | .eepromRead6 x stop => streamFrame (readBits x stop)
  | .eepromRead14 x stop => streamFrame (readBits x stop)
  | .eepromWrite6 x d stop => streamFrame (writeBits x d stop)
  | .eepromWrite14 x d stop => streamFrame (writeBits x d stop)

/-! ### The table's words -/

/-- Whether a 24-bit word is a `flash_cmd` row's whole word (mask 0xFFFFFF). -/
def isFlashWord (w : Nat) : Bool :=
  (exactFlash (BitVec.ofNat 16 (w / 0x100)) (BitVec.ofNat 8 w)).isSome

/-- The frame of an operation whose bits are `w`, numbered as the table numbers them, with zeros in
what the table's word does not hold. Sixteen bits are a `gb_read` address, 32 bits a `gba_io` address,
24 bits a `flash_cmd` word where that row's word is whole, else a `gb_write` word (log 4). -/
def tableFrame (nbits w : Nat) : Frame :=
  if nbits = 16 then gbReadFrame (BitVec.ofNat 16 w) 0
  else if nbits = 24 then
    if isFlashWord w then flashFrame (BitVec.ofNat 16 (w / 0x100)) (BitVec.ofNat 8 w) 0
    else gbWriteFrame (BitVec.ofNat 16 (w / 0x100)) (BitVec.ofNat 8 w) 0
  else if nbits = 32 then gbaIoFrame (BitVec.ofNat 32 w) 0 .b1 0 0
  else callFrame []

/-- The operation the decoder reads from the table's word (the interface of the host's check). -/
def decodeTableWord (nbits w : Nat) : Option Instr :=
  match decode (tableFrame nbits w) with
  | .ok i => some i
  | .error _ => none

end Sys2Proof
end

