-- ==== Sys2Proof/Machine/State.lean ====
section
/-! DEFINITION. The state of the block as plain data (spec 10_state.md R30 to R53), the faults and the
refusals (60_exceptions.md R600 to R602, R609), and the state after reset (70_reset_and_hazards.md
R641). The block has no general registers (R30) and no program counter (R31); what the caller sends
is the list `pending`. -/
namespace Sys2Proof.Machine

/-! ### Faults and refusals -/

/-- How a call ends in a fault or in a fatal error. -/
inductive Fault
  /-- R602, R236: a CPU `read` or `write` while the CPU is stalled; raised by the CPU calls. Safe. -/
  | protocolViolation
  /-- R602, R385: the flash is in Command with no Program or BankSwitch; raised by a flash write. Safe. -/
  | flashInvariant
  /-- R602, R513: a DMA channel runs with no unit remaining; raised by a DMA unit (log 31). Safe. -/
  | dmaZeroUnits
  /-- R602, R204: `Register.Write` with data outside its byte mask; raised by a register write. Safe. -/
  | registerData
  /-- R600, R551, R561, R562: `load` got a file of an unrecognized size; raised by `load`. Safe. -/
  | loadSizeError
  /-- R600, R569: the host could not read or write the save file; raised by `load` and `serialize`. Safe. -/
  | storageIoError
  deriving DecidableEq, Repr

/-- Why a construction is refused (R609). -/
inductive Construction
  | metadata | unsupportedDevice | cgbUnderGen2 | bootLength | biosLength | romTooLong | timing
  deriving DecidableEq, Repr

/-- Why a call is refused (R601): the spec gives it no meaning. -/
inductive Refusal
  /-- An instruction the model gives no meaning yet; raised by `exec`'s arms only. Safe. -/
  | notModelled (mnemonic : String)
  /-- R110: a generation-1 access of a width other than 1; raised by `read` and `write`. Safe. -/
  | widthGen1
  /-- R220: a generation-2 access of a width other than 1, 2, 4; raised for such a call. Safe. -/
  | width
  /-- R173: `tick` of a negative count; raised by `tick`. Safe. -/
  | negativeTick
  /-- R228: a FIFO trigger under generation 1; raised by `Trigger`. Safe. -/
  | triggerGen1
  /-- R344: a CPU write to the EEPROM window of an Eeprom; raised by `write`. Safe. -/
  | eepromCpuWrite
  /-- R423: an RTC write of seconds or minutes above 59 or hours above 23; raised by `write`. Safe. -/
  | rtcRange
  /-- R465: 0xFF55 written with bit 7 set during an hblank transfer; raised by `write`. Safe. -/
  | vdmaRestart
  /-- R499: a channel enabled with SRC_CTL = 3; raised by a DMA register write. Safe. -/
  | dmaSrcCtl3
  /-- R499: channel 3 enabled with DRQ; raised by a DMA register write. Safe. -/
  | dmaDrq
  /-- R499: channel 0 or 3 enabled with TIMING = 3; raised by a DMA register write. Safe. -/
  | dmaSpecialTiming
  /-- R499: channel 1 or 2 enabled with TIMING = 3 and no FIFO destination; raised by a DMA register
  write. Safe. -/
  | dmaFifoDest
  /-- R550: `load` after another call; raised by `load`. Safe. -/
  | lateLoad
  /-- R551: a file for a cartridge without battery; raised by `load`. Safe. -/
  | noBattery
  /-- R555: an RTC trailer with an out-of-range field; raised by `load`. Safe. -/
  | rtcTrailer
  /-- R609: the parameters are illegal, so no block exists to call; raised by `step`. Safe. -/
  | construction (why : Construction)
  /-- R100, R170: a generation-1 call with an address above 16 bits (log 9); raised by `read`, `write`. Safe. -/
  | addressGen1
  /-- R622: an access by a master this machine has not (log 9); raised by `read`, `write`. Safe. -/
  | noSuchMaster
  /-- R170: the frame carries none of the calls that the block accepts, its operands being of no master,
  kind, event or generation, or too few or too many; raised by `step`. Safe. -/
  | notACall (why : DecodeError)
  /-- R15: a call whose wall clock lies before the last call's (log 8); raised by `step`. Safe. -/
  | clockBackward
  deriving DecidableEq, Repr

/-! ### What the caller sends and what the block hands out -/

/-- A call not made yet: the host inputs that come with it (R15) and its frame. -/
structure Pending where
  host : HostIn
  frame : Frame
  deriving DecidableEq, Repr

/-- The value the last call that returned one gave back (R170). -/
inductive Result
  | none
  | value (v : Word)
  | file (f : Option Image)
  deriving DecidableEq, Repr

/-- What the block sends to its collaborators: interrupt requests (R610) and the accesses it forwards
to `io_ext` (R229). -/
inductive OutEvent
  | interrupt (k : Chan)
  | ioRead8 (a : Half)
  | ioWrite8 (a : Half) (v : Byte)
  | ioRead16 (a : Word)
  | ioWrite16 (a : Word) (d : Half) (mask : Half)
  deriving DecidableEq, Repr

/-! ### Generation 1 -/

/-- `S.blocked_bus` (R37). -/
inductive Blocked
  | none | external | video
  deriving DecidableEq, Repr

/-- The states of the object-memory DMA (R38, R450). -/
inductive OamState
  | inactive | starting | active
  deriving DecidableEq, Repr

/-- `S.oam_dma` (R38). -/
structure OamDma where
  state : OamState
  reg : Byte
  src : Half
  index : Nat
  counter : Int
  deriving DecidableEq, Repr

/-- The states of the video-RAM DMA (R39). -/
inductive VdmaState
  | inactive | paused | active
  deriving DecidableEq, Repr

/-- The modes of the video-RAM DMA (R39). -/
inductive VdmaMode
  | general | hblank
  deriving DecidableEq, Repr

/-- `S.vdma` (R39). -/
structure Vdma where
  state : VdmaState
  mode : VdmaMode
  src : Half
  dst : BitVec 13
  blocks : Nat
  counter : Int
  status : Byte
  deriving DecidableEq, Repr

/-- `S.bank` (R40, R264), its `mode_flags` as three fields. -/
structure BankState where
  romBank : Half
  ramBank : Byte
  ramEnabled : Bool
  mode : BitVec 1
  rumble : BitVec 1
  latchLast : Byte
  deriving DecidableEq, Repr

/-- `S.rtc.latched` (R41). -/
structure Latched where
  s : Nat
  m : Nat
  h : Nat
  d : Nat
  deriving DecidableEq, Repr

/-- `S.rtc` (R41), in integer seconds. -/
structure Rtc where
  reference : Int
  haltedInstant : Int
  halted : Bool
  carry : Bool
  latched : Latched
  deriving DecidableEq, Repr

/-- `S.nvs1` where the cartridge has RAM (R42). -/
structure Nvs1 where
  bytes : Image
  persist : Bool
  deriving DecidableEq, Repr

/-- The generation-1 state (R32 to R42, R48). `vram` and `wram` hold their banks one after the other. -/
structure Gen1 where
  bootEnabled : Bool
  vram : Image
  vbk : BitVec 1
  wram : Image
  svbk : BitVec 3
  oam : Image
  hram : Image
  blocked : Blocked
  dmaLastByte : Byte
  oamDma : OamDma
  vdma : Vdma
  bank : BankState
  rumble : Bool
  rtc : Rtc
  nvs1 : Option Nvs1
  deriving DecidableEq, Repr

/-! ### Generation 2 -/

/-- A `Register` of 16 bits (R200). -/
structure Reg16 where
  value : Half
  readMask : Half
  writeMask : Half
  deriving DecidableEq, Repr

/-- The states of a DMA channel (R45). -/
inductive DmaState
  | inactive | starting | active | paused
  deriving DecidableEq, Repr

/-- `S.dma[k]` (R45). -/
structure DmaChannel where
  sadL : Reg16
  sadH : Reg16
  dadL : Reg16
  dadH : Reg16
  cntL : Reg16
  cntH : Reg16
  state : DmaState
  src : BitVec 28
  dst : BitVec 28
  remaining : Nat
  counter : Int
  srcInvalid : Bool
  fifo : Bool
  stop : Bool
  eepromWrote : Bool
  deriving DecidableEq, Repr

/-- The four channels (R45). -/
structure Channels where
  c0 : DmaChannel
  c1 : DmaChannel
  c2 : DmaChannel
  c3 : DmaChannel
  deriving DecidableEq, Repr

/-- `addr_bits` of an Eeprom (R46). -/
inductive AddrBits
  | unknown | six | fourteen
  deriving DecidableEq, Repr

/-- A write command in flight (R46, R338). -/
structure EepromBusy where
  remaining : Int
  word : Nat
  data : BitVec 64
  deriving DecidableEq, Repr

/-- The Eeprom variant (R46). -/
structure Eeprom where
  bytes : Image
  addrBits : AddrBits
  pending : List Bool
  staged : List Bool
  ready : Bool
  busy : Option EepromBusy
  deriving DecidableEq, Repr

/-- `command_state` of a Flash (R370). -/
inductive FlashState
  | notStarted | starting | ready | command
  deriving DecidableEq, Repr

/-- `last_command` of a Flash (R370). -/
inductive FlashCommand
  | none | erase | program | bankSwitch | idEnter | idExit | eraseChip | eraseSector
  deriving DecidableEq, Repr

/-- The action of a program or an erase in flight (R377, R376). -/
inductive FlashAction
  | program (p : Nat) (v : Byte)
  | eraseChip
  | eraseSector (s : Nat)
  deriving DecidableEq, Repr

/-- A program or an erase in flight (R370). -/
structure FlashBusy where
  remaining : Int
  action : FlashAction
  deriving DecidableEq, Repr

/-- The Flash variant (R46, R370). -/
structure Flash where
  bytes : Image
  state : FlashState
  last : FlashCommand
  chipId : FlashId
  bank : BitVec 1
  idMode : Bool
  busy : Option FlashBusy
  deriving DecidableEq, Repr

/-- `S.nvs2` (R46). -/
inductive Nvs2
  | unresolved
  | batteryRam (bytes : Image)
  | eeprom (e : Eeprom)
  | flash (f : Flash)
  deriving DecidableEq, Repr

/-- The generation-2 state (R43 to R46). -/
structure Gen2 where
  biosLatch : Word
  ewram : Image
  iwram : Image
  pal : Image
  vram2 : Image
  oam2 : Image
  dma : Channels
  nvs2 : Nvs2
  deriving DecidableEq, Repr

/-! ### The state -/

/-- The whole state. `cfg` holds the parameters (R8 to R14), which nothing changes; `host` the host
inputs of the current call (R15); `pending` the calls not made yet, first to come first; `loadable`
that no call has been made, so `load` may be (R550); `result` what the last call that returns a value
gave; `outs` what has been sent to the collaborators, oldest first; `draws` the number of the next
free value. -/
structure State where
  cfg : Config
  host : HostIn
  pending : List Pending
  loadable : Bool
  result : Result
  outs : List OutEvent
  draws : Nat
  g1 : Gen1
  g2 : Gen2
  deriving DecidableEq, Repr

/-! ### Reset (R641) -/

/-- An array whose reset contents are a draw (R641). -/
def drawn (size tag : Nat) : Image := { size := size, fill := .draw tag, cells := [] }

/-- `S.oam_dma` after reset (R38). -/
def OamDma.reset : OamDma := { state := .inactive, reg := 0xFF, src := 0, index := 0, counter := 0 }

/-- `S.vdma` after reset (R39). -/
def Vdma.reset : Vdma :=
  { state := .inactive, mode := .general, src := 0, dst := 0, blocks := 0, counter := 0,
    status := 0xFF }

/-- `S.bank` after reset (R263). -/
def BankState.reset : BankState :=
  { romBank := 1, ramBank := 0, ramEnabled := false, mode := 0, rumble := 0, latchLast := 0xFF }

/-- A fresh clock at the wall-clock instant `now` (R41). -/
def Rtc.fresh (now : Int) : Rtc :=
  { reference := now, haltedInstant := now, halted := false, carry := false,
    latched := { s := 0, m := 0, h := 0, d := 0 } }

/-- A register cell after reset: value 0 (R51). -/
def Reg16.reset (readMask writeMask : Half) : Reg16 :=
  { value := 0, readMask := readMask, writeMask := writeMask }

/-- A channel after reset (R45), with the masks of R51 for its `sad_h`, `dad_h`, `cnt_l`, `cnt_h`. -/
def DmaChannel.reset (sadH dadH cntL cntH : Half) : DmaChannel :=
  { sadL := .reset 0 0xFFFF, sadH := .reset 0 sadH, dadL := .reset 0 0xFFFF, dadH := .reset 0 dadH,
    cntL := .reset 0 cntL, cntH := .reset cntH cntH, state := .inactive, src := 0, dst := 0,
    remaining := 0, counter := 0, srcInvalid := false, fifo := false, stop := false,
    eepromWrote := false }

/-- The four channels after reset, with the masks of R51. -/
def Channels.reset : Channels :=
  { c0 := .reset 0x07FF 0x07FF 0x3FFF 0xF7E0, c1 := .reset 0x0FFF 0x07FF 0x3FFF 0xF7E0,
    c2 := .reset 0x0FFF 0x07FF 0x3FFF 0xF7E0, c3 := .reset 0x0FFF 0x0FFF 0xFFFF 0xFFE0 }

/-- The state of the parameters `Config.standard` with every element at its reset value and no save file
(R640, R641): the caller's first call may be the `load` of R640 step 3 (log 28). A draw of R641 is a free value here too: the arrays are drawn, with tags 1 to 10, and the
boot-ROM latch is free value 0. The wall clock stands at 0 (log 2). -/
def State.reset : State where
  cfg := Config.standard
  host := { now := 0, cpu := { prefetch := 0, thumb := false, pcInBios := false },
            ppu := { lcdOn := false, mode := .mode0 }, bgLimit := .limit10000 }
  pending := []
  loadable := true
  result := .none
  outs := []
  draws := 16
  g1 := { bootEnabled := false, vram := drawn 0x4000 1, vbk := 0, wram := drawn 0x8000 2, svbk := 0,
          oam := drawn 160 3, hram := drawn 127 4, blocked := .none, dmaLastByte := 0xFF,
          oamDma := .reset, vdma := .reset, bank := .reset, rumble := false, rtc := .fresh 0,
          nvs1 := some { bytes := drawn 0x8000 5, persist := true } }
  g2 := { biosLatch := Config.freeWord 0, ewram := drawn 0x40000 6, iwram := drawn 0x8000 7,
          pal := drawn 0x400 8, vram2 := drawn 0x18000 9, oam2 := drawn 0x400 10, dma := .reset,
          nvs2 := .unresolved }

end Sys2Proof.Machine
end

