-- ==== Sys2Proof/Machine/Ops.lean ====
section
/-! DEFINITION. The operations on memory, on the free values and on the outputs that every rule uses.
The block takes no exception and returns from none (60_exceptions.md R613): its one interrupt output is
`requestInterrupt`. -/
namespace Sys2Proof.Machine

/-! ### Outcomes -/

/-- How a part of a call ends: with a value, in a fault or in a refusal (R600). -/
abbrev Res (α : Type) := Host.Outcome α Fault Refusal

/-- Goes on with the value of a part that ended normally; a fault or a refusal ends the call (R604). -/
def bindR {α β : Type} (x : Res α) (f : α → Res β) : Res β :=
  match x with
  | .next a => f a
  | .fault r => .fault r
  | .refused r => .refused r

end Sys2Proof.Machine

namespace Sys2Proof

/-! ### Byte arrays -/

/-- What a byte reads as while nothing has stored to it. -/
def Fill.value (f : Fill) (i : Nat) : Byte :=
  match f with
  | .known b => b
  | .draw tag => Config.freeByte tag i

/-- Whether `v` is known to be what an unlisted byte reads as. Nothing is known of a drawn byte
(log 3). -/
def Fill.holds (f : Fill) (v : Byte) : Bool :=
  match f with
  | .known b => b == v
  | .draw _ => false

/-- The value listed at an index. -/
def lookupCell (l : List Host.Cell) (i : Nat) : Option Byte :=
  match l with
  | [] => none
  | c :: r => if c.1 = i then some c.2 else if i < c.1 then none else lookupCell r i

/-- The list with `v` at `i`, kept rising. -/
def insertCell (l : List Host.Cell) (i : Nat) (v : Byte) : List Host.Cell :=
  match l with
  | [] => [(i, v)]
  | c :: r =>
    if c.1 = i then (i, v) :: r
    else if i < c.1 then (i, v) :: c :: r
    else c :: insertCell r i v

/-- The list with nothing at `i`. -/
def eraseCell (l : List Host.Cell) (i : Nat) : List Host.Cell :=
  match l with
  | [] => []
  | c :: r => if c.1 = i then r else if i < c.1 then c :: r else c :: eraseCell r i

/-- The byte at an index; beyond the array the fill value (R108, R306). -/
def Image.read (m : Image) (i : Nat) : Byte :=
  if i < m.size then (lookupCell m.cells i).getD (Fill.value m.fill i) else 0xFF

/-- Stores a byte; beyond the array the write is ignored (R306). -/
def Image.write (m : Image) (i : Nat) (v : Byte) : Image :=
  if i < m.size then
    if Fill.holds m.fill v then { m with cells := eraseCell m.cells i }
    else { m with cells := insertCell m.cells i v }
  else m

/-- The cells of the consecutive bytes `l` from index `i`, less those known to equal the fill. -/
def cellsFrom (f : Fill) (i : Nat) (l : List Byte) : List Host.Cell :=
  match l with
  | [] => []
  | v :: r => if Fill.holds f v then cellsFrom f (i + 1) r else (i, v) :: cellsFrom f (i + 1) r

/-- An array of `n` bytes that all read `v`. -/
def Image.filled (n : Nat) (v : Byte) : Image := { size := n, fill := .known v, cells := [] }

/-- The array of the bytes of a file. -/
def Image.ofBytes (l : List Byte) : Image :=
  { size := l.length, fill := .known 0xFF, cells := cellsFrom (.known 0xFF) 0 l }

/-- The array followed by more bytes. -/
def Image.append (m : Image) (l : List Byte) : Image :=
  { m with size := m.size + l.length, cells := m.cells ++ cellsFrom m.fill m.size l }

/-- The first `n` bytes of an array. -/
def Image.cut (m : Image) (n : Nat) : Image :=
  { m with size := min n m.size, cells := m.cells.filter fun c => decide (c.1 < n) }

/-- What `n` consecutive indexes from `i` hold once `v` is stored there; nothing where `v` is what
the array is filled with. -/
def rangeCells (m : Image) (i n : Nat) (v : Byte) : List Host.Cell :=
  if Fill.holds m.fill v then [] else cellsFrom m.fill i (List.replicate (min n (m.size - i)) v)

/-- Stores `v` at `n` consecutive indexes from `i`, as far as the array goes. -/
def Image.setRange (m : Image) (i n : Nat) (v : Byte) : Image :=
  { m with cells :=
      (m.cells.filter fun c => decide (c.1 < i)) ++ rangeCells m i n v
        ++ (m.cells.filter fun c => decide (i + n ≤ c.1)) }

/-- The bytes of an array, in order. -/
def Image.toList (m : Image) : List Byte := (List.range m.size).map m.read

/-- Indexes strictly rising. -/
def rising (l : List Host.Cell) : Bool :=
  match l with
  | [] => true
  | [_] => true
  | c :: d :: r => decide (c.1 < d.1) && rising (d :: r)

/-- The canonical form: indexes strictly rising and inside the array, and no cell known to equal what
an unlisted byte reads as. -/
def Image.wf (m : Image) : Bool :=
  rising m.cells && m.cells.all fun c => decide (c.1 < m.size) && !(Fill.holds m.fill c.2)

end Sys2Proof

namespace Sys2Proof.Machine

/-! ### Every array of the block -/

/-- The arrays of generation 1. -/
def Gen1.images (g : Gen1) : List Image :=
  [g.vram, g.wram, g.oam, g.hram] ++ (g.nvs1.map (·.bytes)).toList

/-- The array of a storage variant. -/
def Nvs2.images (n : Nvs2) : List Image :=
  match n with
  | .unresolved => []
  | .batteryRam m => [m]
  | .eeprom e => [e.bytes]
  | .flash f => [f.bytes]

/-- The arrays of generation 2. -/
def Gen2.images (g : Gen2) : List Image :=
  [g.ewram, g.iwram, g.pal, g.vram2, g.oam2] ++ Nvs2.images g.nvs2

/-- Every array the block can store to is in its canonical form. -/
def Memory.wf (s : State) : Bool :=
  (s.g1.images.all Image.wf) && (s.g2.images.all Image.wf)

/-! ### Free values and outputs -/

/-- `draw` (R18): the next free value, and the state with the draw counted. -/
def drawWord (s : State) : Word × State :=
  (Config.freeWord s.draws, { s with draws := s.draws + 1 })

/-- `draw(8)`. -/
def drawByte (s : State) : Byte × State := ((drawWord s).1.setWidth 8, (drawWord s).2)

/-- `draw(16)`. -/
def drawHalf (s : State) : Half × State := ((drawWord s).1.setWidth 16, (drawWord s).2)

/-- `draw(1)` repeated `n` times. -/
def drawBits (n : Nat) (s : State) : List Bool × State :=
  ((List.range n).map fun i => (Config.freeWord (s.draws + i)).getLsbD 0,
   { s with draws := s.draws + n })

/-- Sends one event to the collaborators. -/
def emit (e : OutEvent) (s : State) : State := { s with outs := s.outs ++ [e] }

/-- `request_interrupt(DMA<k>)` (R610, R611): one call of the sink, which the block does not hold. -/
def requestInterrupt (k : Chan) (s : State) : State := emit (.interrupt k) s

/-- A read returns `v` to its caller. -/
def setResult (r : Result) (s : State) : State := { s with result := r }

/-! ### State updates by component -/

/-- The state with another bank state. -/
def setBank (b : BankState) (s : State) : State := { s with g1.bank := b }

/-- The state with another clock. -/
def setRtc (r : Rtc) (s : State) : State := { s with g1.rtc := r }

/-- The state with another object-memory DMA channel. -/
def setOamDma (d : OamDma) (s : State) : State := { s with g1.oamDma := d }

/-- The state with another video-RAM DMA channel. -/
def setVdma (d : Vdma) (s : State) : State := { s with g1.vdma := d }

/-- The state with another storage variant. -/
def setNvs2 (n : Nvs2) (s : State) : State := { s with g2.nvs2 := n }

/-- One channel of the four. -/
def Channels.get (c : Channels) (k : Chan) : DmaChannel :=
  match k with
  | .c0 => c.c0
  | .c1 => c.c1
  | .c2 => c.c2
  | .c3 => c.c3

/-- The four channels with channel `k` replaced. -/
def Channels.set (c : Channels) (k : Chan) (d : DmaChannel) : Channels :=
  match k with
  | .c0 => { c with c0 := d }
  | .c1 => { c with c1 := d }
  | .c2 => { c with c2 := d }
  | .c3 => { c with c3 := d }

/-- `S.dma[k]`. -/
def chan (s : State) (k : Chan) : DmaChannel := s.g2.dma.get k

/-- `S.dma[k] <- d`. -/
def setChan (k : Chan) (d : DmaChannel) (s : State) : State := { s with g2.dma := s.g2.dma.set k d }

end Sys2Proof.Machine
end

