-- ==== Sys2Proof/Machine/Operands.lean ====
section
/-! DEFINITION. Operand forms: widths, byte lanes and alignment (20_memory.md R109 to R114), addresses
and windows (R101 to R106, R119), bank offsets (42_bank_controllers.md R267), DMA address masks
(47_dma_gen2.md R490, 46_dma_gen1.md R452). -/
namespace Sys2Proof

/-! ### Widths, limits, buses -/

/-- The number of bytes n of a width. -/
def Width.bytes : Width → Nat
  | .b1 => 1
  | .b2 => 2
  | .b4 => 4

/-- A value cut to `n` bytes. -/
def Width.cut (w : Width) (v : Word) : Word :=
  match w with
  | .b1 => (v.setWidth 8).setWidth 32
  | .b2 => (v.setWidth 16).setWidth 32
  | .b4 => v

/-- `vram_bg_limit` (R15). -/
def BgLimit.value : BgLimit → Nat
  | .limit10000 => 0x10000
  | .limit14000 => 0x14000

/-- The value of `S.blocked_bus` that blocks a bus; the internal bus is never blocked (R119). -/
def Bus.toBlocked : Bus → Machine.Blocked
  | .external => .external
  | .video => .video
  | .internal => .none

end Sys2Proof

namespace Sys2Proof.Machine

/-! ### Widths, lanes, alignment -/

/-- `a & ~(n - 1)` (R112). -/
def align (w : Width) (a : Word) : Word :=
  match w with
  | .b1 => a
  | .b2 => a &&& 0xFFFFFFFE
  | .b4 => a &&& 0xFFFFFFFC

/-- Byte lane `i` of a value (R19). -/
def lane (v : Word) (i : Nat) : Byte := v.extractLsb' (8 * i) 8

/-- `a & m` as an index. -/
def maskAddr (a m : Word) : Nat := (a &&& m).toNat

/-- `LE(arr, o, n)` (R222). -/
def readLE (m : Image) (o : Nat) (w : Width) : Word :=
  match w with
  | .b1 => (m.read o).setWidth 32
  | .b2 => (m.read (o + 1) ++ m.read o).setWidth 32
  | .b4 => m.read (o + 3) ++ m.read (o + 2) ++ m.read (o + 1) ++ m.read o

/-- `StoreLE(arr, o, n, v)` (R225): lane i at `o + i`. -/
def storeLE (m : Image) (o : Nat) (w : Width) (v : Word) : Image :=
  match w with
  | .b1 => m.write o (lane v 0)
  | .b2 => (m.write o (lane v 0)).write (o + 1) (lane v 1)
  | .b4 =>
    (((m.write o (lane v 0)).write (o + 1) (lane v 1)).write (o + 2) (lane v 2)).write (o + 3)
      (lane v 3)

/-- The lane of an open-bus word that the address selects (R117). -/
def laneOf (ob a : Word) (w : Width) : Word :=
  match w with
  | .b1 => (lane ob (a &&& 3).toNat).setWidth 32
  | .b2 => (ob.extractLsb' (8 * (a &&& 2).toNat) 16).setWidth 32
  | .b4 => ob

/-- The open-bus word `OPEN_BUS_FN(cpu)` (R116). -/
def openBusWord (cfg : Config) (cpu : CpuCtx) : Word :=
  match cfg.openBus with
  | .standard => if cpu.thumb then cpu.prefetch.setWidth 16 ++ cpu.prefetch.setWidth 16 else cpu.prefetch
  | .other id => Config.openBusOther id cpu

/-- `Compose16(f, a', n)` (R222): halfword reads, in order. -/
def compose16 (f : Word → State → Half × State) (a : Word) (w : Width) (s : State) : Word × State :=
  match w with
  | .b1 =>
    let r := f (a &&& 0xFFFFFFFE) s
    ((if a.getLsbD 0 then hiByte r.1 else loByte r.1).setWidth 32, r.2)
  | .b2 =>
    let r := f a s
    (r.1.setWidth 32, r.2)
  | .b4 =>
    let r := f a s
    let q := f (a + 2) r.2
    (q.1 ++ r.1, q.2)

/-- The data a one-byte write gives a 16-bit device: the byte in its lane (R225). -/
def byteData (a v : Word) : Half :=
  if a.getLsbD 0 then v.setWidth 8 ++ 0#8 else 0#8 ++ v.setWidth 8

/-- The byte mask of a one-byte write (R203). -/
def byteMask (a : Word) : Half := if a.getLsbD 0 then 0xFF00 else 0x00FF

/-- `Compose16W(f, a', n, v)` (R225): the low half, then the high half. -/
def compose16W (f : Word → Half → Half → State → Res State) (a : Word) (w : Width) (v : Word)
    (s : State) : Res State :=
  match w with
  | .b1 => f (a &&& 0xFFFFFFFE) (byteData a v) (byteMask a) s
  | .b2 => f a (v.setWidth 16) 0xFFFF s
  | .b4 => bindR (f a (v.setWidth 16) 0xFFFF s) (f (a + 2) (v.extractLsb' 16 16) 0xFFFF)

/-- A byte repeated in every lane (R114). -/
def replicate (w : Width) (b : Byte) : Word :=
  match w with
  | .b1 => b.setWidth 32
  | .b2 => (b ++ b).setWidth 32
  | .b4 => b ++ b ++ b ++ b

/-- The byte a write of the storage window stores: lane `a & (n - 1)` (R114). -/
def windowByte (a : Word) (w : Width) (v : Word) : Byte :=
  match w with
  | .b1 => lane v 0
  | .b2 => lane v (a &&& 1).toNat
  | .b4 => lane v (a &&& 3).toNat

/-! ### Generation-1 addresses -/

/-- The echo of 0xC000-0xDDFF (R102). -/
def echo (a : Half) : Half := if 0xE000 ≤ a ∧ a ≤ 0xFDFF then a - 0x2000 else a

/-- `BootOverlay(b)` (R221): the boot ROM that catches a read. -/
def bootOverlay (s : State) (b : Half) : Option Image :=
  match s.cfg.boot with
  | none => none
  | some m =>
    if s.g1.bootEnabled ∧ b.toNat < m.size ∧ ¬ (0x0100 ≤ b ∧ b ≤ 0x01FF) then some m else none

/-- The index of video RAM `S.vram[b][i]` (R33). -/
def vramIndex (bank : BitVec 1) (i : Nat) : Nat := bank.toNat * 0x2000 + i

/-- The bank seen at 0xD000-0xDFFF (R34). -/
def wramBank (s : State) : Nat :=
  if s.cfg.cgb then (if s.g1.svbk = 0 then 1 else s.g1.svbk.toNat) else 1

/-- The index of work RAM for an address in 0xC000-0xDFFF (R101). -/
def wramIndex (s : State) (b : Half) : Nat :=
  if b ≤ 0xCFFF then b.toNat - 0xC000 else wramBank s * 0x1000 + (b.toNat - 0xD000)

/-- `GB_BUS_OF(a)` (R119). A map other than the default respects the echo region (R102, log 15). -/
def busOf (cfg : Config) (a : Half) : Bus :=
  match cfg.busMap with
  | .standard =>
    if 0xFE00 ≤ a then .internal else if 0x8000 ≤ a ∧ a ≤ 0x9FFF then .video else .external
  | .other id => Config.busOther id (echo a)

/-- `OamSource(v)` (R452). -/
def oamSource (v : Byte) : Half := (v ++ 0#8) - (if 0xE0 ≤ v then 0x2000 else 0)

/-- `EffRom(b)` (R267). -/
def effRom (cart : Cart) (b : Nat) : Nat := b &&& (cart.romBankCount - 1)

/-- `RamOff(b, a)` (R267). -/
def ramOff (cart : Cart) (b : Nat) (a : Half) : Nat :=
  (b * 0x2000 + (a &&& 0x1FFF).toNat) &&& (cart.ramSize - 1)

/-- A byte offset into ROM: effective bank and address in the window. -/
def romOffset (cart : Cart) (bank : Nat) (a : Half) : Nat :=
  effRom cart bank * 0x4000 + (a &&& 0x3FFF).toNat

/-! ### Generation-2 addresses -/

/-- `a[31:24]` (R105). -/
def page (a : Word) : Byte := a.extractLsb' 24 8

/-- The offset into video RAM (R105). -/
def vramOff (a : Word) : Nat :=
  if maskAddr a 0x1FFFF < 0x18000 then maskAddr a 0x1FFFF else maskAddr a 0x1FFFF - 0x8000

/-- The offset in the storage window (R114). -/
def windowOff (a : Word) : Nat := maskAddr a 0xFFFF

/-- Whether an address lies in the EEPROM window (R106). -/
def inEepromWindow (cfg : Config) (a : Word) : Bool :=
  if cfg.rom.size ≤ 0x01000000 then page a == 0x0D else decide (0x0DFFFF00 ≤ a ∧ a ≤ 0x0DFFFFFF)

/-- The upper byte of the ROM halfword at offset `o`; a ROM of odd length ends before its last one
(log 16). -/
def romUpper (cfg : Config) (o : Nat) : Byte :=
  if o + 1 < cfg.rom.size then cfg.rom.read (o + 1) else Config.romTail

/-- The ROM halfword at an aligned address (R118). -/
def romHalf (cfg : Config) (u : Word) : Half :=
  if cfg.rom.size ≤ maskAddr u 0x01FFFFFF then (u >>> 1).setWidth 16
  else romUpper cfg (maskAddr u 0x01FFFFFF) ++ cfg.rom.read (maskAddr u 0x01FFFFFF)

/-- `SrcMask(k)` (R490). -/
def srcMask : Chan → BitVec 28
  | .c0 => 0x7FFFFFF
  | _ => 0xFFFFFFF

/-- `DstMask(k)` (R490). -/
def dstMask : Chan → BitVec 28
  | .c3 => 0xFFFFFFF
  | _ => 0x7FFFFFF

/-- `Max(k)` (R490). -/
def maxUnits : Chan → Nat
  | .c3 => 0x10000
  | _ => 0x4000

/-- `SAD` (R180). -/
def DmaChannel.sad (c : DmaChannel) : BitVec 28 := c.sadH.value.setWidth 12 ++ c.sadL.value

/-- `DAD` (R180). -/
def DmaChannel.dad (c : DmaChannel) : BitVec 28 := c.dadH.value.setWidth 12 ++ c.dadL.value

/-- A FIFO address (R174). -/
def isFifo (d : BitVec 28) : Bool := d == 0x40000A0 || d == 0x40000A4

/-- `Step(ctl, w)` (R498), for a unit of `w` bytes. -/
def stepAddr (ctl : BitVec 2) (w : Nat) (a mask : BitVec 28) : BitVec 28 :=
  (if ctl = 1 then a - BitVec.ofNat 28 w
   else if ctl = 2 then a
   else a + BitVec.ofNat 28 w) &&& mask

end Sys2Proof.Machine
end

