-- ==== Sys2Proof/Machine/Flags.lean ====
section
/-! DEFINITION. Every status and flag the block computes: the CPU stall (10_state.md R49), blocking and
gating (20_memory.md R119 to R123), the fields of a DMA control register (30_encoding.md R180), the
status bytes of the video-RAM DMA (46_dma_gen1.md R470) and of the clock (45_rtc.md R417), the ready
flag of the EEPROM (43_storage_battery_eeprom.md R341). The block has no arithmetic flags (R30, R52). -/
namespace Sys2Proof.Machine

/-! ### The CPU stall -/

/-- Whether some generation-2 channel is Active. -/
def anyActive (c : Channels) : Bool :=
  c.c0.state == .active || c.c1.state == .active || c.c2.state == .active || c.c3.state == .active

/-- `cpu_stalled()` (R49). -/
def cpuStalled (s : State) : Bool :=
  match s.cfg.gen with
  | .gen1 => s.cfg.cgb && s.g1.vdma.state == .active
  | .gen2 => anyActive s.g2.dma

/-! ### Blocking and gating, generation 1 -/

/-- R121: object memory while the object-memory DMA is Active. -/
def oamBlocked (s : State) (a : Half) : Bool :=
  s.g1.oamDma.state == .active && decide (0xFE00 ≤ a ∧ a ≤ 0xFEFF)

/-- R120: an address on the blocked bus. -/
def busBlocked (s : State) (a : Half) : Bool :=
  s.g1.blocked != .none && (busOf s.cfg a).toBlocked == s.g1.blocked

/-- The accesses gated in mode 3 only (R123). -/
def gatedMode3 (s : State) (a : Half) : Bool :=
  s.host.ppu.mode == .mode3
    && (decide (0x8000 ≤ a ∧ a ≤ 0x9FFF) || (s.cfg.cgb && (a == 0xFF69 || a == 0xFF6B)))

/-- The accesses gated in modes 2 and 3 (R123). -/
def gatedMode23 (s : State) (a : Half) : Bool :=
  (s.host.ppu.mode == .mode2 || s.host.ppu.mode == .mode3) && decide (0xFE00 ≤ a ∧ a ≤ 0xFEFF)

/-- `Gated1(a)` (R221). -/
def gated1 (s : State) (a : Half) : Bool :=
  s.host.ppu.lcdOn && (gatedMode3 s a || gatedMode23 s a)

/-- What a CPU read that does not reach its location returns; `none` where it reaches it (R221). -/
def heldBack (s : State) (a : Half) : Option Byte :=
  if oamBlocked s a then some 0xFF
  else if busBlocked s a then some s.g1.dmaLastByte
  else if gated1 s a then some 0xFF
  else none

/-! ### The control fields of a DMA channel (R180) -/

/-- `DEST_CTL`. -/
def destCtl (h : Half) : BitVec 2 := h.extractLsb' 5 2

/-- `SRC_CTL`. -/
def srcCtl (h : Half) : BitVec 2 := h.extractLsb' 7 2

/-- `REPEAT`. -/
def repeatBit (h : Half) : Bool := h.getLsbD 9

/-- `WIDTH`. -/
def widthBit (h : Half) : Bool := h.getLsbD 10

/-- `DRQ`. -/
def drqBit (h : Half) : Bool := h.getLsbD 11

/-- `TIMING`. -/
def timing (h : Half) : BitVec 2 := h.extractLsb' 12 2

/-- `IRQ`. -/
def irqBit (h : Half) : Bool := h.getLsbD 14

/-- `ENABLE`. -/
def enableBit (h : Half) : Bool := h.getLsbD 15

/-- A control value with `ENABLE` cleared (R510). -/
def clearEnable (h : Half) : Half := h &&& 0x7FFF

/-! ### Status bytes -/

/-- What a read of 0xFF55 returns (R470). -/
def vdmaStatusByte (d : Vdma) : Byte :=
  if d.state = .inactive then d.status else (BitVec.ofNat 8 (d.blocks - 1)) &&& 0x7F

/-- The DH byte of a day count (R417, R557): day bit 8, halt, day carry. -/
def dhByte (d : Nat) (halted carry : Bool) : Byte :=
  (if d.testBit 8 then 0x01 else 0x00) ||| (if halted then 0x40 else 0x00)
    ||| (if carry then 0x80 else 0x00)

/-- The halfword that shows the EEPROM's ready flag (R339). -/
def readyHalf (ready : Bool) : Half := if ready then 1 else 0

end Sys2Proof.Machine
end

