-- ==== Sys2Proof/Machine/Rtc.lean ====
section
/-! DEFINITION. The real-time clock of Family C (45_rtc.md). Its time base is the wall clock `now` of the
call (R411). -/
namespace Sys2Proof.Machine

/-! ### Time (R410 to R412) -/

/-- The wall clock of the current call (R15). -/
def nowOf (s : State) : Int := s.host.now

/-- `Elapsed()` (R411). -/
def elapsed (r : Rtc) (now : Int) : Int := (if r.halted then r.haltedInstant else now) - r.reference

/-- `Unit(u)` of an elapsed time, by the modulus and the count of the unit (R412). -/
def unitOf (e modulus count : Int) : Int := e / modulus % count

/-- `Unit(seconds)`. -/
def rtcSeconds (r : Rtc) (now : Int) : Int := unitOf (elapsed r now) 1 60

/-- `Unit(minutes)`. -/
def rtcMinutes (r : Rtc) (now : Int) : Int := unitOf (elapsed r now) 60 60

/-- `Unit(hours)`. -/
def rtcHours (r : Rtc) (now : Int) : Int := unitOf (elapsed r now) 3600 24

/-- `Unit(days)`. -/
def rtcDays (r : Rtc) (now : Int) : Int := unitOf (elapsed r now) 86400 512

/-- `Days()`, the unreduced day count (R412). -/
def rtcDayCount (r : Rtc) (now : Int) : Int := elapsed r now / 86400

/-- `Normalize()` (R415). -/
def rtcNormalize (now : Int) (r : Rtc) : Rtc :=
  if 512 ≤ rtcDayCount r now then
    { r with carry := true, reference := r.reference + 86400 * 512 * (rtcDayCount r now / 512) }
  else r

/-- The snapshot of the running clock. -/
def rtcSnapshot (r : Rtc) (now : Int) : Latched :=
  { s := (rtcSeconds r now).toNat, m := (rtcMinutes r now).toNat, h := (rtcHours r now).toNat,
    d := (rtcDays r now).toNat }

/-- `RtcLatch()` (R416). -/
def rtcLatch (now : Int) (r : Rtc) : Rtc :=
  { rtcNormalize now r with latched := rtcSnapshot (rtcNormalize now r) now }

/-! ### Register reads (R417) -/

/-- `RtcRead(sel)`; a select outside 0x08 to 0x0C has no register (R413) and reads the fill value. -/
def rtcReadReg (r : Rtc) (sel : Byte) : Byte :=
  if sel = 0x08 then BitVec.ofNat 8 r.latched.s
  else if sel = 0x09 then BitVec.ofNat 8 r.latched.m
  else if sel = 0x0A then BitVec.ofNat 8 r.latched.h
  else if sel = 0x0B then BitVec.ofNat 8 r.latched.d
  else if sel = 0x0C then dhByte r.latched.d r.halted r.carry
  else 0xFF

/-! ### Register writes (R418 to R423) -/

/-- The reference instant moved so that a unit with modulus `m` goes from `old` to `new` (R418). -/
def backSolve (r : Rtc) (m old new : Int) : Rtc := { r with reference := r.reference - (new - old) * m }

/-- The day count with its bits 7 to 0 replaced. -/
def dayLow (d : Nat) (v : Byte) : Nat := d / 256 % 2 * 256 + v.toNat

/-- The day count with its bit 8 replaced. -/
def dayHigh (d : Nat) (v : Byte) : Nat := (if v.getLsbD 0 then 256 else 0) + d % 256

/-- The write of seconds (R418). -/
def rtcWriteSeconds (now : Int) (v : Byte) (r : Rtc) : Rtc :=
  { backSolve r 1 (rtcSeconds r now) v.toNat with latched.s := v.toNat }

/-- The write of minutes (R418). -/
def rtcWriteMinutes (now : Int) (v : Byte) (r : Rtc) : Rtc :=
  { backSolve r 60 (rtcMinutes r now) v.toNat with latched.m := v.toNat }

/-- The write of hours (R418). -/
def rtcWriteHours (now : Int) (v : Byte) (r : Rtc) : Rtc :=
  { backSolve r 3600 (rtcHours r now) v.toNat with latched.h := v.toNat }

/-- The write of the low day byte (R418). -/
def rtcWriteDayLow (now : Int) (v : Byte) (r : Rtc) : Rtc :=
  { backSolve r 86400 (rtcDays r now) (dayLow (rtcDays r now).toNat v) with
    latched.d := dayLow r.latched.d v }

/-- R419 step 1: day bit 8. -/
def rtcWriteDayHigh (now : Int) (v : Byte) (r : Rtc) : Rtc :=
  { backSolve r 86400 (rtcDays r now) (dayHigh (rtcDays r now).toNat v) with
    latched.d := dayHigh r.latched.d v }

/-- R419 step 2: the halt transition (R420, R421). -/
def rtcSetHalt (now : Int) (halt : Bool) (r : Rtc) : Rtc :=
  if halt ∧ ¬ r.halted then { r with haltedInstant := now, halted := true }
  else if ¬ halt ∧ r.halted then
    { r with reference := r.reference + (now - r.haltedInstant), halted := false }
  else r

/-- `RtcWrite(0x0C, v)` (R419), after `Normalize`. -/
def rtcWriteFlags (now : Int) (v : Byte) (r : Rtc) : Rtc :=
  { rtcSetHalt now (v.getLsbD 6) (rtcWriteDayHigh now v r) with carry := v.getLsbD 7 }

/-- Whether a written value is in the range of its register (R423). The whole byte counts (R418, D40): a bit
above the field of S, M or H puts it out of range, whatever R179 says of such bits (DEDUCED, log 29). -/
def rtcInRange (sel v : Byte) : Bool :=
  if sel = 0x08 ∨ sel = 0x09 then decide (v.toNat < 60)
  else if sel = 0x0A then decide (v.toNat < 24)
  else true

/-- `RtcWrite(sel, v)` (R418, R419) once its range is checked. -/
def rtcStore (now : Int) (sel v : Byte) (r : Rtc) : Rtc :=
  if sel = 0x08 then rtcWriteSeconds now v (rtcNormalize now r)
  else if sel = 0x09 then rtcWriteMinutes now v (rtcNormalize now r)
  else if sel = 0x0A then rtcWriteHours now v (rtcNormalize now r)
  else if sel = 0x0B then rtcWriteDayLow now v (rtcNormalize now r)
  else if sel = 0x0C then rtcWriteFlags now v (rtcNormalize now r)
  else r

/-- `RtcWrite(sel, v)` on the state. -/
def rtcWriteReg (sel v : Byte) (s : State) : Res State :=
  if rtcInRange sel v then .next (setRtc (rtcStore (nowOf s) sel v s.g1.rtc) s)
  else .refused .rtcRange

end Sys2Proof.Machine
end

