-- ==== Sys2Proof/Machine/Bank.lean ====
section
/-! DEFINITION. The bank controllers of generation 1 (42_bank_controllers.md): per family `map_rom`,
`map_ram` and the control registers, and the access of the RAM window. -/
namespace Sys2Proof.Machine

/-- What `map_ram` answers (R260). -/
inductive RamTarget
  | offset (o : Nat)
  | rtc (sel : Byte)
  | noDevice
  deriving DecidableEq, Repr

/-! ### map_rom -/

/-- `map_rom` of Family None (R270). -/
def mapRomNone (a : Half) : Nat := a.toNat

/-- The bank Family A maps at an address (R275). -/
def bankA (b : BankState) (a : Half) : Nat :=
  if a ≤ 0x3FFF then (if b.mode = 1 then b.ramBank.toNat <<< 5 else 0)
  else (b.ramBank.toNat <<< 5) ||| b.romBank.toNat

/-- `map_rom` of Family A (R275). -/
def mapRomA (cart : Cart) (b : BankState) (a : Half) : Nat := romOffset cart (bankA b a) a

/-- The offset of the families whose low window shows bank 0. -/
def mapRomPinned (cart : Cart) (b : BankState) (a : Half) : Nat :=
  if a ≤ 0x3FFF then a.toNat else romOffset cart b.romBank.toNat a

/-- `map_rom` of Family B (R279). -/
def mapRomB (cart : Cart) (b : BankState) (a : Half) : Nat := mapRomPinned cart b a

/-- `map_rom` of Family C (R285). -/
def mapRomC (cart : Cart) (b : BankState) (a : Half) : Nat := mapRomPinned cart b a

/-- `map_rom` of Family D (R293). -/
def mapRomD (cart : Cart) (b : BankState) (a : Half) : Nat := mapRomPinned cart b a

/-- `map_rom` of the cartridge's family. -/
def mapRom (cart : Cart) (b : BankState) (a : Half) : Nat :=
  match cart.family with
  | .romOnly => mapRomNone a
  | .a => mapRomA cart b a
  | .b => mapRomB cart b a
  | .c => mapRomC cart b a
  | .d => mapRomD cart b a

/-- `read_rom(a)` (R268): beyond the ROM the fill value. -/
def readRom (s : State) (a : Half) : Byte := s.cfg.rom.read (mapRom s.cfg.cart s.g1.bank a)

/-! ### map_ram -/

/-- `map_ram` of Family None (R270). -/
def mapRamNone (cart : Cart) (a : Half) : RamTarget :=
  if cart.ramSize = 0 then .noDevice else .offset (a.toNat - 0xA000)

/-- `map_ram` of Family A (R276). -/
def mapRamA (cart : Cart) (b : BankState) (a : Half) : RamTarget :=
  if cart.ramSize = 0 ∨ b.ramEnabled = false then .noDevice
  else .offset (ramOff cart (if b.mode = 1 then b.ramBank.toNat else 0) a)

/-- `map_ram` of Family B (R280). -/
def mapRamB (b : BankState) (a : Half) : RamTarget :=
  if b.ramEnabled then .offset ((a.toNat - 0xA000) % 0x200) else .noDevice

/-- `map_ram` of Family C (R286, R287). -/
def mapRamC (cart : Cart) (b : BankState) (a : Half) : RamTarget :=
  if b.ramEnabled = false then .noDevice
  else if b.ramBank ≤ 0x07 then
    (if cart.ramSize = 0 then .noDevice else .offset (ramOff cart b.ramBank.toNat a))
  else if b.ramBank ≤ 0x0C then (if cart.hasRtc then .rtc b.ramBank else .noDevice)
  else .noDevice

/-- `map_ram` of Family D (R293). -/
def mapRamD (cart : Cart) (b : BankState) (a : Half) : RamTarget :=
  if cart.ramSize = 0 ∨ b.ramEnabled = false then .noDevice
  else .offset (ramOff cart b.ramBank.toNat a)

/-- `map_ram` of the cartridge's family. -/
def mapRam (cart : Cart) (b : BankState) (a : Half) : RamTarget :=
  match cart.family with
  | .romOnly => mapRamNone cart a
  | .a => mapRamA cart b a
  | .b => mapRamB b a
  | .c => mapRamC cart b a
  | .d => mapRamD cart b a

/-! ### The RAM window (R305) -/

/-- What the bus reads of a stored byte: of Family B's cells the low nibble (R280). -/
def shownByte (f : Family) (v : Byte) : Byte := if f = .b then 0xF0 ||| (v &&& 0x0F) else v

/-- What the bus stores of a written byte: in Family B's cells the low nibble (R280). -/
def keptByte (f : Family) (v : Byte) : Byte := if f = .b then v &&& 0x0F else v

/-- A byte of `S.nvs1`; without RAM the fill value (R306). -/
def readNvs1 (s : State) (o : Nat) : Byte :=
  match s.g1.nvs1 with
  | none => 0xFF
  | some n => if o < n.bytes.size then shownByte s.cfg.cart.family (n.bytes.read o) else 0xFF

/-- Stores a byte in `S.nvs1`; without RAM the write is ignored (R306). -/
def writeNvs1 (o : Nat) (v : Byte) (s : State) : State :=
  match s.g1.nvs1 with
  | none => s
  | some n =>
    { s with g1.nvs1 := some { n with bytes := n.bytes.write o (keptByte s.cfg.cart.family v) } }

/-- `read_ram(a)` (R305). -/
def readRam (s : State) (a : Half) : Byte :=
  match mapRam s.cfg.cart s.g1.bank a with
  | .offset o => readNvs1 s o
  | .rtc sel => rtcReadReg s.g1.rtc sel
  | .noDevice => 0xFF

/-- `write_ram(a, v)` (R305). -/
def writeRam (a : Half) (v : Byte) (s : State) : Res State :=
  match mapRam s.cfg.cart s.g1.bank a with
  | .offset o => .next (writeNvs1 o v s)
  | .rtc sel => rtcWriteReg sel v s
  | .noDevice => .next s

/-! ### The control registers -/

/-- Whether a written byte enables the RAM (R274). -/
def enablesRam (v : Byte) : Bool := v &&& 0x0F == 0x0A

/-- A bank number of which 0 is promoted to 1 (R271, R277, R282). -/
def promote (v : Byte) : Half := if v = 0 then 1 else v.setWidth 16

/-- Family A, RAM enable (R274). -/
def ramgA (v : Byte) (s : State) : State :=
  if 0 < s.cfg.cart.ramSize then setBank { s.g1.bank with ramEnabled := enablesRam v } s else s

/-- Family A, low ROM-bank register (R271). -/
def rombA (v : Byte) (s : State) : State :=
  setBank { s.g1.bank with romBank := promote (v &&& 0x1F) } s

/-- Family A, high register (R272). -/
def rambA (v : Byte) (s : State) : State := setBank { s.g1.bank with ramBank := v &&& 0x03 } s

/-- Family A, mode register (R273). -/
def modeA (v : Byte) (s : State) : State := setBank { s.g1.bank with mode := v.setWidth 1 } s

/-- Family B, RAM enable (R277). -/
def ramgB (v : Byte) (s : State) : State := setBank { s.g1.bank with ramEnabled := enablesRam v } s

/-- Family B, ROM bank (R277). -/
def rombB (v : Byte) (s : State) : State :=
  setBank { s.g1.bank with romBank := promote (v &&& 0x0F) } s

/-- Family C, RAM and RTC enable (R281). -/
def ramgC (v : Byte) (s : State) : State :=
  if 0 < s.cfg.cart.ramSize ∨ s.cfg.cart.hasRtc = true then
    setBank { s.g1.bank with ramEnabled := enablesRam v } s
  else s

/-- Family C, ROM bank (R282). -/
def rombC (v : Byte) (s : State) : State :=
  setBank { s.g1.bank with romBank := promote (v &&& 0x7F) } s

/-- Family C, RAM bank and RTC select (R283); with neither RAM nor clock it is the register of an absent
device, and the write is ignored (R295, log 25). -/
def rambC (v : Byte) (s : State) : State :=
  if 0 < s.cfg.cart.ramSize ∨ s.cfg.cart.hasRtc = true then setBank { s.g1.bank with ramBank := v } s
  else s

/-- The clock after a latch strobe: latched when 0x01 follows 0x00 (R284). -/
def strobed (v : Byte) (s : State) : Rtc :=
  if s.g1.bank.latchLast = 0x00 ∧ v = 0x01 then rtcLatch (nowOf s) s.g1.rtc else s.g1.rtc

/-- Family C, RTC latch strobe (R284). -/
def latchC (v : Byte) (s : State) : State :=
  if s.cfg.cart.hasRtc then
    setBank { s.g1.bank with latchLast := v } (setRtc (strobed v s) s)
  else s

/-- Family D, RAM enable (R288). -/
def ramgD (v : Byte) (s : State) : State :=
  if 0 < s.cfg.cart.ramSize then setBank { s.g1.bank with ramEnabled := enablesRam v } s else s

/-- Family D, ROM bank low byte (R289). -/
def romb0D (v : Byte) (s : State) : State :=
  setBank { s.g1.bank with romBank := hiByte s.g1.bank.romBank ++ v } s

/-- Family D, ROM bank high byte (R290). -/
def romb1D (v : Byte) (s : State) : State :=
  setBank { s.g1.bank with romBank := v ++ loByte s.g1.bank.romBank } s

/-- The RAM bank a write leaves on Family D: without RAM the bank it was (R295, log 25). -/
def bankWrittenD (s : State) (n : Byte) : Byte :=
  if 0 < s.cfg.cart.ramSize then n else s.g1.bank.ramBank

/-- Family D, RAM bank and rumble (R291). -/
def rambD (v : Byte) (s : State) : State :=
  if s.cfg.cart.hasRumble then
    { setBank { s.g1.bank with rumble := v.extractLsb' 3 1, ramBank := bankWrittenD s (v &&& 0x07) } s with
      g1.rumble := v.getLsbD 3 }
  else setBank { s.g1.bank with ramBank := bankWrittenD s (v &&& 0x0F) } s

/-- `write_control` of Family A, by `a[14:13]` (R178). -/
def writeControlA (a : Half) (v : Byte) (s : State) : State :=
  if a ≤ 0x1FFF then ramgA v s
  else if a ≤ 0x3FFF then rombA v s
  else if a ≤ 0x5FFF then rambA v s
  else modeA v s

/-- `write_control` of Family B, by `a[8]` (R277, R278). -/
def writeControlB (a : Half) (v : Byte) (s : State) : State :=
  if a ≤ 0x3FFF then (if a.getLsbD 8 then rombB v s else ramgB v s) else s

/-- `write_control` of Family C, by `a[14:13]` (R178). -/
def writeControlC (a : Half) (v : Byte) (s : State) : State :=
  if a ≤ 0x1FFF then ramgC v s
  else if a ≤ 0x3FFF then rombC v s
  else if a ≤ 0x5FFF then rambC v s
  else latchC v s

/-- `write_control` of Family D, by `a[14:12]` (R178); 0x6000-0x7FFF is ignored (R292). -/
def writeControlD (a : Half) (v : Byte) (s : State) : State :=
  if a ≤ 0x1FFF then ramgD v s
  else if a ≤ 0x2FFF then romb0D v s
  else if a ≤ 0x3FFF then romb1D v s
  else if a ≤ 0x5FFF then rambD v s
  else s

/-- `write_control(a, v)` (R269); Family None ignores it (R270). -/
def writeControl (a : Half) (v : Byte) (s : State) : State :=
  match s.cfg.cart.family with
  | .romOnly => s
  | .a => writeControlA a v s
  | .b => writeControlB a v s
  | .c => writeControlC a v s
  | .d => writeControlD a v s

end Sys2Proof.Machine
end

