-- ==== Sys2Proof/Machine/Eeprom.lean ====
section
/-! DEFINITION. The EEPROM (43_storage_battery_eeprom.md R326 to R347): word layout, bit input, the end
of a stream, bit output, the deferred write. -/
namespace Sys2Proof.Machine

/-! ### Words (R326, R327) -/

/-- The number of words `W`. -/
def eepromWords (e : Eeprom) : Nat := e.bytes.size / 8

/-- Word `w`, big-endian (R326). -/
def readEepromWord (m : Image) (w : Nat) : BitVec 64 :=
  m.read (8 * w) ++ m.read (8 * w + 1) ++ m.read (8 * w + 2) ++ m.read (8 * w + 3)
    ++ m.read (8 * w + 4) ++ m.read (8 * w + 5) ++ m.read (8 * w + 6) ++ m.read (8 * w + 7)

/-- Byte `i` of a word, the most significant first (R326). -/
def wordByte (d : BitVec 64) (i : Nat) : Byte := d.extractLsb' (56 - 8 * i) 8

/-- Stores a word, big-endian (R326). -/
def storeEepromWord (m : Image) (w : Nat) (d : BitVec 64) : Image :=
  (List.range 8).foldl (fun m i => m.write (8 * w + i) (wordByte d i)) m

/-- A fresh Eeprom (R563): the fields of every Eeprom that is created or loaded. -/
def freshEeprom (bits : AddrBits) (bytes : Image) : Eeprom :=
  { bytes := bytes, addrBits := bits, pending := [], staged := [], ready := true, busy := none }

/-! ### Streams (R333 to R335) -/

/-- A command of the stream grammar: its address length, its address, the data of a write, and whether the
read/write bit is the one of its length (R181). -/
structure EepromCommand where
  bits : AddrBits
  x : Nat
  data : Option (BitVec 64)
  fits : Bool
  deriving DecidableEq, Repr

/-- The stream without its stop bit (R333). -/
def dropStop (l : List Bool) : List Bool :=
  if l.length = 9 ∨ l.length = 17 ∨ l.length = 73 ∨ l.length = 81 then l.dropLast else l

/-- The command of `n` address bits after the start bit and the read/write bit `b1`, 1 for a read request and
0 for a write (R181). -/
def commandOf (bits : AddrBits) (n : Nat) (write b1 : Bool) (r : List Bool) : EepromCommand :=
  { bits := bits, x := bitsToNat (r.take n),
    data := if write then some (BitVec.ofNat 64 (bitsToNat (r.drop n))) else none,
    fits := b1 != write }

/-- The command of a stream without its stop bit, by its length (R333, R184) and its start bit (R335). -/
def parseBits (l : List Bool) : Option EepromCommand :=
  match l with
  | true :: b1 :: r =>
    if r.length = 6 then some (commandOf .six 6 false b1 r)
    else if r.length = 14 then some (commandOf .fourteen 14 false b1 r)
    else if r.length = 70 then some (commandOf .six 6 true b1 r)
    else if r.length = 78 then some (commandOf .fourteen 14 true b1 r)
    else none
  | _ => none

/-- The command of a whole stream. -/
def parseStream (l : List Bool) : Option EepromCommand := parseBits (dropStop l)

/-- The address-length freeze (R334): `none` where the stream is of the other length. -/
def freeze (e : Eeprom) (c : EepromCommand) : Option Eeprom :=
  match e.addrBits with
  | .unknown =>
    some { e with addrBits := c.bits, bytes := if c.bits = .six then e.bytes.cut 512 else e.bytes }
  | b => if b = c.bits then some e else none

/-- The data a read request answers (R337): out of range, all ones. -/
def eepromData (e : Eeprom) (x : Nat) : BitVec 64 :=
  if x < eepromWords e then readEepromWord e.bytes x else BitVec.allOnes 64

/-- Stages the answer of a read request (R337), its preamble drawn. -/
def stageRead (x : Nat) (e : Eeprom) (s : State) : State :=
  setNvs2 (.eeprom { e with staged := (drawBits s.cfg.preambleBits s).1 ++ msbBits (eepromData e x) })
    (drawBits s.cfg.preambleBits s).2

/-- Starts a write (R338). -/
def startWrite (x : Nat) (d : BitVec 64) (e : Eeprom) (s : State) : State :=
  setNvs2
    (.eeprom { e with staged := [], ready := false,
                      busy := some { remaining := s.cfg.timing.eepromWrite, word := x, data := d } }) s

/-- A command on an Eeprom whose address length is settled; while busy it is discarded (R336). R337 runs a read
request with `b1` = 1 and R338 a write with `b1` = 0; a stream whose bit is not the one of its length is
neither, and does no more than settle the address length (log 20). -/
def runCommand (c : EepromCommand) (e : Eeprom) (s : State) : State :=
  if e.busy.isSome ∨ c.fits = false then setNvs2 (.eeprom e) s
  else
    match c.data with
    | none => stageRead c.x e s
    | some d => startWrite c.x d e s

/-- `EepromEndStream()` on the bits `l` (R332 to R338); a discarded stream changes nothing (R345). -/
def runStream (l : List Bool) (e : Eeprom) (s : State) : State :=
  match parseStream l with
  | none => setNvs2 (.eeprom e) s
  | some c =>
    match freeze e c with
    | none => setNvs2 (.eeprom e) s
    | some e' => runCommand c e' s

/-- The stream boundary of the storage device: the pending bits are run and cleared (R332). -/
def endStream (s : State) : State :=
  match s.g2.nvs2 with
  | .eeprom e => runStream e.pending { e with pending := [] } s
  | _ => s

/-- The stream boundary of channel `k` (R332), where the activation wrote the window. -/
def streamBoundary (k : Chan) (s : State) : State :=
  if (chan s k).eepromWrote then
    setChan k { chan (endStream s) k with eepromWrote := false } (endStream s)
  else s

/-- One bit appended to the stream (R331), to the device only. -/
def appendBit (b : Bool) (s : State) : State :=
  match s.g2.nvs2 with
  | .eeprom e => setNvs2 (.eeprom { e with pending := e.pending ++ [b] }) s
  | _ => s

/-- `EepromBitIn(k, d)` (R331). -/
def eepromBitIn (k : Chan) (d : Half) (s : State) : State :=
  setChan k { chan (appendBit (d.getLsbD 0) s) k with eepromWrote := true } (appendBit (d.getLsbD 0) s)

/-! ### Output and completion -/

/-- `EepromRead()` on the device (R339): the halfword read and the device after. -/
def drain (e : Eeprom) : Half × Eeprom :=
  match e.staged with
  | [] => (readyHalf e.ready, e)
  | b :: r => (readyHalf b, { e with staged := r })

/-- The stored word of a completed write; out of range nothing is stored (R342, R343). -/
def completeWrite (b : EepromBusy) (e : Eeprom) : Eeprom :=
  { e with
    bytes := if b.word < eepromWords e then storeEepromWord e.bytes b.word b.data else e.bytes,
    ready := true, busy := none }

/-- `EepromTick1()` (R342). -/
def eepromTick (e : Eeprom) : Eeprom :=
  match e.busy with
  | none => e
  | some b =>
    if b.remaining - 1 = 0 then completeWrite b e
    else { e with busy := some { b with remaining := b.remaining - 1 } }

end Sys2Proof.Machine
end

