-- ==== Sys2Proof/Machine/Flash.lean ====
section
/-! DEFINITION. The flash (44_storage_flash.md): the command machine, reads, the deferred program and
erase. -/
namespace Sys2Proof.Machine

/-- A flash as it is created (R370), with the identifier of its size (R371). -/
def freshFlash (cfg : Config) (bytes : Image) : Flash :=
  { bytes := bytes, state := .notStarted, last := .none,
    chipId := if bytes.size = 0x20000 then cfg.flashId128 else cfg.flashId64,
    bank := 0, idMode := false, busy := none }

/-- `p(o)` (R372). -/
def physical (f : Flash) (o : Half) : Nat := f.bank.toNat * 0x10000 + o.toNat

/-- `Unrecognized()` (R387). -/
def unrecognized (f : Flash) : Flash := { f with state := .notStarted, last := .none }

/-- `FlashNotStarted(o, v)` (R374). -/
def flashNotStarted (o : Half) (v : Byte) (f : Flash) : Flash :=
  if o = 0x5555 ∧ v = 0xAA then { f with state := .starting } else unrecognized f

/-- `FlashStarting(o, v)` (R375). -/
def flashStarting (o : Half) (v : Byte) (f : Flash) : Flash :=
  if o = 0x2AAA ∧ v = 0x55 then { f with state := .ready } else unrecognized f

/-- A command that ends the sequence (R376). -/
def command (c : FlashCommand) (f : Flash) : Flash := { f with state := .notStarted, last := c }

/-- A command that takes one more write (R376). -/
def commandOpen (c : FlashCommand) (f : Flash) : Flash := { f with state := .command, last := c }

/-- A program or an erase put in flight. -/
def inFlight (latency : Nat) (a : FlashAction) (f : Flash) : Flash :=
  { f with busy := some { remaining := latency, action := a } }

/-- The sector an erase at offset `o` names (R376). -/
def sectorOf (f : Flash) (o : Half) : Nat := f.bank.toNat * 0x10000 + (o &&& 0xF000).toNat

/-- `FlashReady(o, v)` (R376). -/
def flashReady (t : Timing) (o : Half) (v : Byte) (f : Flash) : Flash :=
  if o = 0x5555 ∧ v = 0x90 then command .idEnter { f with idMode := true }
  else if o = 0x5555 ∧ v = 0xF0 then command .idExit { f with idMode := false }
  else if o = 0x5555 ∧ v = 0x80 then command .erase f
  else if o = 0x5555 ∧ v = 0x10 ∧ f.last = .erase then
    command .eraseChip (inFlight t.flashEraseChip .eraseChip f)
  else if v = 0x30 ∧ f.last = .erase then
    command .eraseSector (inFlight t.flashEraseSector (.eraseSector (sectorOf f o)) f)
  else if o = 0x5555 ∧ v = 0xA0 then commandOpen .program f
  else if o = 0x5555 ∧ v = 0xB0 ∧ f.bytes.size = 0x20000 then commandOpen .bankSwitch f
  else unrecognized f

/-- `FlashCommand(o, v)` (R377); any other last command is a fault (R385). -/
def flashCommand (t : Timing) (o : Half) (v : Byte) (f : Flash) : Res Flash :=
  if f.last = .program then
    .next { inFlight t.flashProgram (.program (physical f o) v) f with state := .notStarted }
  else if f.last = .bankSwitch then
    (if o = 0 then .next { f with bank := v.setWidth 1, state := .notStarted }
     else .next (unrecognized f))
  else .fault .flashInvariant

/-- `FlashWrite(o, v)` (R373); while busy the write is ignored (R382). -/
def flashWrite (t : Timing) (o : Half) (v : Byte) (f : Flash) : Res Flash :=
  if f.busy.isSome then .next f
  else
    match f.state with
    | .notStarted => .next (flashNotStarted o v f)
    | .starting => .next (flashStarting o v f)
    | .ready => .next (flashReady t o v f)
    | .command => flashCommand t o v f

/-- `FlashRead(o)` (R380). -/
def flashRead (f : Flash) (o : Half) : Byte :=
  if f.idMode ∧ o = 0 then f.chipId.manufacturer
  else if f.idMode ∧ o = 1 then f.chipId.device
  else f.bytes.read (physical f o)

/-- The action of a program or an erase (R378, R379). -/
def flashAction (a : FlashAction) (m : Image) : Image :=
  match a with
  | .program p v => m.write p v
  | .eraseChip => m.setRange 0 m.size 0xFF
  | .eraseSector p => m.setRange p 0x1000 0xFF

/-- The flash part of `StorageTick1()` (R388). -/
def flashTick (f : Flash) : Flash :=
  match f.busy with
  | none => f
  | some b =>
    if b.remaining - 1 = 0 then { f with bytes := flashAction b.action f.bytes, busy := none }
    else { f with busy := some { b with remaining := b.remaining - 1 } }

end Sys2Proof.Machine
end

