-- ==== Sys2Proof/Machine/Storage.lean ====
section
/-! DEFINITION. The storage of generation 2 on the bus: the storage window (43_storage_battery_eeprom.md
R323 to R325), the EEPROM window and cartridge ROM (41_bus.md R222, R225), first-write sniffing
(48_persistence.md R563 to R566), the deferred completions (44_storage_flash.md R388). -/
namespace Sys2Proof.Machine

/-! ### Fresh variants (R563) -/

/-- A fresh battery RAM: 0x8000 bytes, drawn. -/
def freshBatteryRam (tag : Nat) : Nvs2 := .batteryRam (drawn 0x8000 tag)

/-- A fresh flash of 0x10000 or 0x20000 bytes of 0xFF. -/
def freshFlashOf (cfg : Config) (dual : Bool) : Nvs2 :=
  .flash (freshFlash cfg (Image.filled (if dual then 0x20000 else 0x10000) 0xFF))

/-- The Eeprom a DMA write to the window selects (R566). -/
def sniffedEeprom : Eeprom := freshEeprom .unknown (Image.filled 8192 0xFF)

/-- The variant that the first write of the storage window selects (R565). -/
def sniffStorage (o : Half) (v : Byte) (s : State) : State :=
  if o = 0x5555 ∧ v = 0xAA then setNvs2 (freshFlashOf s.cfg s.cfg.sniffDual) s
  else { setNvs2 (freshBatteryRam s.draws) s with draws := s.draws + 1 }

/-! ### The storage window -/

/-- The byte of the storage window at an offset (R323, R325, R380, R565). -/
def storageByte (n : Nvs2) (o : Half) : Byte :=
  match n with
  | .unresolved => 0xFF
  | .batteryRam m => m.read o.toNat
  | .eeprom _ => 0xFF
  | .flash f => flashRead f o

/-- The offset in the storage window (R114). -/
def storageOff (a : Word) : Half := a.setWidth 16

/-- `StorageRead(m, a, n)` (R325): the byte in every lane (R114). -/
def storageRead (a : Word) (w : Width) (s : State) : Word :=
  replicate w (storageByte s.g2.nvs2 (storageOff a))

/-- A byte written to a resolved variant (R324, R325, R373). -/
def storageWriteByte (o : Half) (v : Byte) (s : State) : Res State :=
  match s.g2.nvs2 with
  | .unresolved => .next s
  | .batteryRam m => .next (setNvs2 (.batteryRam (m.write o.toNat v)) s)
  | .eeprom _ => .next s
  | .flash f => bindR (flashWrite s.cfg.timing o v f) fun f' => .next (setNvs2 (.flash f') s)

/-- The state whose variant the write meets: resolved first where it was not (R565). -/
def resolvedFor (o : Half) (v : Byte) (s : State) : State :=
  if s.g2.nvs2 = .unresolved then sniffStorage o v s else s

/-- `StorageWrite(m, a, n, v)` (R325): the byte of the lane the address selects (R114). -/
def storageWrite (a : Word) (w : Width) (v : Word) (s : State) : Res State :=
  storageWriteByte (storageOff a) (windowByte a w v)
    (resolvedFor (storageOff a) (windowByte a w v) s)

/-! ### The EEPROM window and cartridge ROM -/

/-- `CartRead16(m)(u)` (R222): a bit of the Eeprom in its window, else the ROM halfword. -/
def cartRead16 (u : Word) (s : State) : Half × State :=
  match s.g2.nvs2 with
  | .eeprom e =>
    if inEepromWindow s.cfg u then ((drain e).1, setNvs2 (.eeprom (drain e).2) s)
    else (romHalf s.cfg u, s)
  | _ => (romHalf s.cfg u, s)

/-- The bit a channel writes to the window, the Eeprom selected first where nothing was (R566). -/
def windowBit (k : Chan) (d : Half) (s : State) : State :=
  if s.g2.nvs2 = .unresolved then eepromBitIn k d (setNvs2 (.eeprom sniffedEeprom) s)
  else eepromBitIn k d s

/-- `CartWrite16(m)(u, d, bm)` (R225, R344, R566). -/
def cartWrite16 (m : Master) (u : Word) (d _mask : Half) (s : State) : Res State :=
  if inEepromWindow s.cfg u then
    match m, s.g2.nvs2 with
    | .chan k, .eeprom _ => .next (windowBit k d s)
    | .chan k, .unresolved => .next (windowBit k d s)
    | .chan _, _ => .next s
    | _, .eeprom _ => .refused .eepromCpuWrite
    | _, _ => .next s
  else .next s

/-! ### Deferred completions -/

/-- The device after `StorageTick1()` (R388). -/
def nvs2Tick (n : Nvs2) : Nvs2 :=
  match n with
  | .eeprom e => .eeprom (eepromTick e)
  | .flash f => .flash (flashTick f)
  | .batteryRam m => .batteryRam m
  | .unresolved => .unresolved

/-- `StorageTick1()` (R388), step 2 of a cycle (R227). -/
def storageTick1 (s : State) : State := setNvs2 (nvs2Tick s.g2.nvs2) s

end Sys2Proof.Machine
end

