-- ==== Sys2Proof/Machine/Persist.lean ====
section
/-! DEFINITION. `load` and `serialize` (48_persistence.md R550 to R569). -/
namespace Sys2Proof.Machine

/-! ### The RTC trailer (R554 to R557) -/

/-- The unsigned value of bytes, lowest first. -/
def leNat (l : List Byte) : Nat :=
  match l with
  | [] => 0
  | b :: r => b.toNat + 256 * leNat r

/-- The `n` bytes at an offset. -/
def slice (l : List Byte) (o n : Nat) : List Byte := (l.drop o).take n

/-- A 4-byte field of the trailer. -/
def field4 (t : List Byte) (o : Nat) : Nat := leNat (slice t o 4)

/-- Whether a field of seconds, minutes, hours, days and flags at an offset is in range (R555). -/
def fieldsInRange (t : List Byte) (o : Nat) : Bool :=
  decide (field4 t o ≤ 59) && decide (field4 t (o + 4) ≤ 59) && decide (field4 t (o + 8) ≤ 23)
    && decide (field4 t (o + 12) ≤ 0xFF) && decide (field4 t (o + 16) &&& 0xC1 = field4 t (o + 16))

/-- The day count of a days field and a flags field (R556). -/
def daysOf (days flags : Nat) : Nat := days % 256 + (if flags.testBit 0 then 256 else 0)

/-- The elapsed time E of the running fields (R556). -/
def trailerElapsed (t : List Byte) : Nat :=
  field4 t 0 + 60 * field4 t 4 + 3600 * field4 t 8 + 86400 * daysOf (field4 t 12) (field4 t 16)

/-- The latched fields (R556). -/
def trailerLatched (t : List Byte) : Latched :=
  { s := field4 t 0x14, m := field4 t 0x18, h := field4 t 0x1C,
    d := daysOf (field4 t 0x20) (field4 t 0x24) }

/-- The timestamp (R554). It is an instant of `now()`, so the eight bytes are read as a signed number
(DESIGN CHOICE, log 27). -/
def trailerStamp (t : List Byte) : Int := (BitVec.ofNat 64 (leNat (slice t 0x28 8))).toInt

/-- The halt bit of the running flags. -/
def trailerHalted (t : List Byte) : Bool := (field4 t 16).testBit 6

/-- The instant from which the elapsed time counts back: now where halted, else the save instant, no
later than now (R556). -/
def trailerBase (t : List Byte) (now : Int) : Int :=
  if trailerHalted t then now else min (trailerStamp t) now

/-- `RtcLoad(t)` (R556). -/
def rtcLoad (t : List Byte) (now : Int) : Rtc :=
  { reference := trailerBase t now - trailerElapsed t, haltedInstant := now,
    halted := trailerHalted t, carry := (field4 t 16).testBit 7, latched := trailerLatched t }

/-- Four bytes that hold a byte (R555: the upper bytes are 0). -/
def pad4 (b : Byte) : List Byte := [b, 0, 0, 0]

/-- Five fields of the trailer (R554): seconds, minutes, hours, low day byte, flags. -/
def fields5 (l : Latched) (halted carry : Bool) : List Byte :=
  pad4 (BitVec.ofNat 8 l.s) ++ pad4 (BitVec.ofNat 8 l.m) ++ pad4 (BitVec.ofNat 8 l.h)
    ++ pad4 (BitVec.ofNat 8 l.d) ++ pad4 (dhByte l.d halted carry)

/-- The trailer of a clock already normalised (R557). Of `now` it holds the low 64 bits, two's complement
(log 27). -/
def trailerOf (r : Rtc) (now : Int) : List Byte :=
  fields5 (rtcSnapshot r now) r.halted r.carry ++ fields5 r.latched r.halted r.carry
    ++ le64 (BitVec.ofInt 64 now)

/-! ### Generation 1 (R551, R552) -/

/-- The size of the RAM part of a save file (R551). -/
def saveBase (cart : Cart) : Nat := if cart.family = .b then 512 else cart.ramSize

/-- The bytes of `S.nvs1` replaced. -/
def setNvs1Bytes (m : Image) (s : State) : State :=
  { s with g1.nvs1 := s.g1.nvs1.map fun n => { n with bytes := m } }

/-- The clock set fresh (R41, R559). -/
def freshRtc (s : State) : State := setRtc (.fresh s.host.now) s

/-- `load` of no file (R551): the RAM is drawn. -/
def loadNoFile1 (s : State) : State :=
  freshRtc { setNvs1Bytes (drawn (saveBase s.cfg.cart) s.draws) s with draws := s.draws + 1 }

/-- `load` of a file with a trailer (R551, R555, R556). -/
def loadTrailer (l : List Byte) (s : State) : Res State :=
  if fieldsInRange (l.drop (saveBase s.cfg.cart)) 0
      ∧ fieldsInRange (l.drop (saveBase s.cfg.cart)) 0x14 then
    .next (setRtc (rtcLoad (l.drop (saveBase s.cfg.cart)) s.host.now)
      (setNvs1Bytes (.ofBytes (l.take (saveBase s.cfg.cart))) s))
  else .refused .rtcTrailer

/-- `load` of the bytes of a file, for a cartridge with a battery (R551). DEDUCED (log 19): with a clock and
no RAM the size of the RAM part is 0, and the empty file is taken, as the pseudocode's `len(file) == base`
says, though the corner case names a file of 0x30 bytes or none. -/
def loadBytes1 (l : List Byte) (s : State) : Res State :=
  if l.length = saveBase s.cfg.cart then .next (freshRtc (setNvs1Bytes (.ofBytes l) s))
  else if s.cfg.cart.hasRtc = true ∧ l.length = saveBase s.cfg.cart + 0x30 then loadTrailer l s
  else .fault .loadSizeError

/-- `load(file)` of generation 1 (R551, R569). -/
def load1 (f : SaveFile) (s : State) : Res State :=
  if s.cfg.cart.hasBattery = false then
    match f with
    | .absent => .next s
    | .bytes _ => .refused .noBattery
    | .unreadable => .refused .noBattery
  else
    match f with
    | .absent => .next (loadNoFile1 s)
    | .bytes l => loadBytes1 l s
    | .unreadable => .fault .storageIoError

/-- The RAM bytes of the save file (R552). -/
def savedRam (s : State) : Image :=
  match s.g1.nvs1 with
  | none => Image.filled 0 0xFF
  | some n => n.bytes

/-- The clock after a serialize: normalised, where there is one (R557). -/
def normalizedFor (s : State) : State :=
  if s.cfg.cart.hasRtc then setRtc (rtcNormalize (nowOf s) s.g1.rtc) s else s

/-- The bytes that follow the RAM (R552). -/
def saveTail (s : State) : List Byte :=
  if s.cfg.cart.hasRtc then trailerOf s.g1.rtc s.host.now else []

/-- `serialize()` of generation 1 (R552): the file, and the state after. -/
def serialize1 (s : State) : Option Image × State :=
  if s.cfg.cart.hasBattery = false then (none, s)
  else (some ((savedRam (normalizedFor s)).append (saveTail (normalizedFor s))), normalizedFor s)

/-! ### Generation 2 (R560 to R567) -/

/-- The file size of a variant (R561, R562). -/
def variantSize : SaveVariant → Nat
  | .batteryRam => 0x8000
  | .eeprom6 => 0x200
  | .eeprom14 => 0x2000
  | .flash64 => 0x10000
  | .flash128 => 0x20000

/-- The variant that a file of the variant's size makes (R561, R563). -/
def variantOf (cfg : Config) (v : SaveVariant) (m : Image) : Nvs2 :=
  match v with
  | .batteryRam => .batteryRam m
  | .eeprom6 => .eeprom (freshEeprom .six m)
  | .eeprom14 => .eeprom (freshEeprom .fourteen m)
  | .flash64 => .flash (freshFlash cfg m)
  | .flash128 => .flash (freshFlash cfg m)

/-- The bytes of a variant that is created without a file (R563). -/
def freshBytes (v : SaveVariant) (tag : Nat) : Image :=
  match v with
  | .batteryRam => drawn 0x8000 tag
  | .eeprom6 => Image.filled 0x200 0xFF
  | .eeprom14 => Image.filled 0x2000 0xFF
  | .flash64 => Image.filled 0x10000 0xFF
  | .flash128 => Image.filled 0x20000 0xFF

/-- The variant of a file size (R561). -/
def sizeClass (n : Nat) : Option SaveVariant :=
  if n = 0x8000 then some .batteryRam
  else if n = 0x200 then some .eeprom6
  else if n = 0x2000 then some .eeprom14
  else if n = 0x10000 then some .flash64
  else if n = 0x20000 then some .flash128
  else none

/-- `load` of no file (R562 to R564). -/
def loadNoFile2 (s : State) : State :=
  match s.cfg.saveOverride with
  | none => setNvs2 .unresolved s
  | some v => { setNvs2 (variantOf s.cfg v (freshBytes v s.draws)) s with draws := s.draws + 1 }

/-- The variant of a file: the override's, or the size's (R560). -/
def chosenVariant (s : State) (n : Nat) : Option SaveVariant :=
  match s.cfg.saveOverride with
  | none => sizeClass n
  | some v => if n = variantSize v then some v else none

/-- `load` of the bytes of a file (R561, R562). -/
def loadBytes2 (l : List Byte) (s : State) : Res State :=
  match chosenVariant s l.length with
  | none => .fault .loadSizeError
  | some v => .next (setNvs2 (variantOf s.cfg v (.ofBytes l)) s)

/-- `load(file)` of generation 2 (R560, R569). -/
def load2 (f : SaveFile) (s : State) : Res State :=
  match f with
  | .absent => .next (loadNoFile2 s)
  | .bytes l => loadBytes2 l s
  | .unreadable => .fault .storageIoError

/-- `serialize()` of generation 2 (R567). -/
def serialize2 (s : State) : Option Image :=
  match s.g2.nvs2 with
  | .unresolved => none
  | .batteryRam m => some m
  | .eeprom e => if e.addrBits = .unknown then none else some e.bytes
  | .flash f => some f.bytes

/-! ### The calls (R550) -/

/-- `load(file)`: only before any other call (R550). -/
def callLoad (f : SaveFile) (s : State) : Res State :=
  if s.loadable = false then .refused .lateLoad
  else
    match s.cfg.gen with
    | .gen1 => load1 f s
    | .gen2 => load2 f s

/-- What `serialize()` gives (R552, R567), and the state after. -/
def serializeFile (s : State) : Option Image × State :=
  match s.cfg.gen with
  | .gen1 => serialize1 s
  | .gen2 => (serialize2 s, s)

/-- `serialize()`: where the host cannot write the file, the error of R569. -/
def callSerialize (writable : Bool) (s : State) : Res State :=
  if writable = false ∧ (serializeFile s).1.isSome = true then .fault .storageIoError
  else .next (setResult (.file (serializeFile s).1) (serializeFile s).2)

end Sys2Proof.Machine
end

