-- ==== Sys2Proof/Machine/Gen1Io.lean ====
section
/-! DEFINITION. The I/O registers of generation 1 (41_bus.md R229 to R234, 46_dma_gen1.md R451, R461 to
R465, R470). -/
namespace Sys2Proof.Machine

/-! ### The object-memory DMA trigger (R451, R453) -/

/-- `OamEnterActive()` (R453). -/
def oamEnterActive (s : State) : State :=
  { setOamDma { s.g1.oamDma with state := .active, counter := s.cfg.timing.oamUnit } s with
    g1.blocked := (busOf s.cfg s.g1.oamDma.src).toBlocked }

/-- The channel with a transfer from page `v` set up, and the bus released (R451). -/
def oamArm (v : Byte) (s : State) : State :=
  { setOamDma { s.g1.oamDma with src := oamSource v, index := 0 } s with g1.blocked := .none }

/-- `OamDmaStart(v)` (R451). -/
def oamStart (v : Byte) (s : State) : State :=
  if s.cfg.timing.oamStart = 0 then oamEnterActive (oamArm v s)
  else
    setOamDma { (oamArm v s).g1.oamDma with state := .starting, counter := s.cfg.timing.oamStart }
      (oamArm v s)

/-- A write of 0xFF46 (R230). -/
def writeDma (v : Byte) (s : State) : State :=
  oamStart v (setOamDma { s.g1.oamDma with reg := v } s)

/-! ### The bank registers and the boot switch (R231 to R233) -/

/-- A write of 0xFF4F (R231). -/
def writeVbk (v : Byte) (s : State) : State :=
  if s.cfg.cgb then { s with g1.vbk := v.setWidth 1 } else s

/-- A read of 0xFF4F (R231). -/
def readVbk (s : State) : Byte := if s.cfg.cgb then 0b1111111#7 ++ s.g1.vbk else 0xFF

/-- A write of 0xFF50 (R232). -/
def writeBoot (v : Byte) (s : State) : State :=
  if v = 0 then s else { s with g1.bootEnabled := false }

/-- A write of 0xFF70 (R233). -/
def writeSvbk (v : Byte) (s : State) : State :=
  if s.cfg.cgb then { s with g1.svbk := v.setWidth 3 } else s

/-- A read of 0xFF70 (R233). -/
def readSvbk (s : State) : Byte := if s.cfg.cgb then 0b11111#5 ++ s.g1.svbk else 0xFF

/-! ### The video-RAM DMA (R461 to R465, R470) -/

/-- The channel after a write of 0xFF51 (R461). -/
def hdma1 (v : Byte) (d : Vdma) : Vdma := { d with src := v ++ (loByte d.src &&& 0xF0) }

/-- The channel after a write of 0xFF52 (R461). -/
def hdma2 (v : Byte) (d : Vdma) : Vdma := { d with src := hiByte d.src ++ (v &&& 0xF0) }

/-- The channel after a write of 0xFF53 (R461). -/
def hdma3 (v : Byte) (d : Vdma) : Vdma :=
  { d with dst := v.setWidth 5 ++ ((d.dst.setWidth 8 : Byte) &&& 0xF0) }

/-- The channel after a write of 0xFF54 (R461). -/
def hdma4 (v : Byte) (d : Vdma) : Vdma := { d with dst := d.dst.extractLsb' 8 5 ++ (v &&& 0xF0) }

/-- `LEN + 1` (R462, R463). -/
def vdmaBlocks (v : Byte) : Nat := (v &&& 0x7F).toNat + 1

/-- A general-purpose transfer started (R462). -/
def gdmaStart (t : Timing) (v : Byte) (d : Vdma) : Vdma :=
  { d with mode := .general, blocks := vdmaBlocks v, state := .active, counter := t.vdmaBlock }

/-- An hblank transfer armed (R463). -/
def hdmaArm (v : Byte) (d : Vdma) : Vdma :=
  { d with mode := .hblank, blocks := vdmaBlocks v, state := .paused }

/-- An hblank transfer cancelled (R464). -/
def hdmaCancel (d : Vdma) : Vdma :=
  { d with status := 0x80 ||| (BitVec.ofNat 8 (d.blocks - 1) &&& 0x7F), state := .inactive }

/-- Whether an hblank transfer is in progress (R464, R465). -/
def hdmaRunning (d : Vdma) : Bool := d.mode == .hblank && d.state != .inactive

/-- The channel after a write of 0xFF55: by MODE and by what is in progress (R462 to R465). A write while
a transfer is Active cannot come from the CPU, which is stalled (R471). DESIGN CHOICE (log 21): where
another master makes one that R462 to R465 do not name, with bit 7 clear while an hblank or a general
transfer is Active it starts a general transfer as R462 says, and with bit 7 set while a general transfer
is Active it arms an hblank transfer as R463 says. -/
def hdma5 (t : Timing) (v : Byte) (d : Vdma) : Res Vdma :=
  if v.getLsbD 7 then (if hdmaRunning d then .refused .vdmaRestart else .next (hdmaArm v d))
  else if d.mode = .hblank ∧ d.state = .paused then .next (hdmaCancel d)
  else .next (gdmaStart t v d)

/-- A write of 0xFF51-0xFF55 (R234): only on a colour machine. -/
def writeVdmaReg (a : Half) (v : Byte) (s : State) : Res State :=
  if s.cfg.cgb = false then .next s
  else if a = 0xFF51 then .next (setVdma (hdma1 v s.g1.vdma) s)
  else if a = 0xFF52 then .next (setVdma (hdma2 v s.g1.vdma) s)
  else if a = 0xFF53 then .next (setVdma (hdma3 v s.g1.vdma) s)
  else if a = 0xFF54 then .next (setVdma (hdma4 v s.g1.vdma) s)
  else bindR (hdma5 s.cfg.timing v s.g1.vdma) fun d => .next (setVdma d s)

/-- A read of 0xFF55 (R470, R234). -/
def readHdma5 (s : State) : Byte := if s.cfg.cgb then vdmaStatusByte s.g1.vdma else 0xFF

/-! ### Dispatch (R229) -/

/-- Whether the block owns an I/O address (R50). -/
def ownsIo (a : Half) : Bool :=
  a == 0xFF46 || a == 0xFF4F || a == 0xFF50 || (decide (0xFF51 ≤ a) && decide (a ≤ 0xFF55)) || a == 0xFF70

/-- `io_ext.read8` (R229): the access is sent out, and its value is a draw. -/
def ioExtRead8 (a : Half) (s : State) : Byte × State :=
  ((drawByte s).1, emit (.ioRead8 a) (drawByte s).2)

/-- The value of a register the block owns (R230 to R234). -/
def ownedRead (a : Half) (s : State) : Byte :=
  if a = 0xFF46 then s.g1.oamDma.reg
  else if a = 0xFF4F then readVbk s
  else if a = 0xFF55 then readHdma5 s
  else if a = 0xFF70 then readSvbk s
  else 0xFF

/-- `IoRead1(b)` (R229). -/
def ioRead1 (a : Half) (s : State) : Byte × State :=
  if ownsIo a then (ownedRead a s, s) else ioExtRead8 a s

/-- A write of a register the block owns (R230 to R234). -/
def ownedWrite (a : Half) (v : Byte) (s : State) : Res State :=
  if a = 0xFF46 then .next (writeDma v s)
  else if a = 0xFF4F then .next (writeVbk v s)
  else if a = 0xFF50 then .next (writeBoot v s)
  else if a = 0xFF70 then .next (writeSvbk v s)
  else writeVdmaReg a v s

/-- `IoWrite1(b, v)` (R229). -/
def ioWrite1 (a : Half) (v : Byte) (s : State) : Res State :=
  if ownsIo a then ownedWrite a v s else .next (emit (.ioWrite8 a v) s)

end Sys2Proof.Machine
end

