-- ==== Sys2Proof/Machine/Gen1Bus.lean ====
section
/-! DEFINITION. The bus of generation 1: `Read1` and `Write1` (41_bus.md R221, R224). -/
namespace Sys2Proof.Machine

/-- What a read that reaches its location answers, by region (R221). The address is one the echo has
been removed from. -/
def regionRead1 (b : Half) (s : State) : Byte × State :=
  if b ≤ 0x7FFF then (readRom s b, s)
  else if b ≤ 0x9FFF then (s.g1.vram.read (vramIndex s.g1.vbk (b.toNat - 0x8000)), s)
  else if b ≤ 0xBFFF then (readRam s b, s)
  else if b ≤ 0xDFFF then (s.g1.wram.read (wramIndex s b), s)
  else if b ≤ 0xFE9F then (s.g1.oam.read (b.toNat - 0xFE00), s)
  else if b ≤ 0xFEFF then drawByte s
  else if b ≤ 0xFF7F then ioRead1 b s
  else if b ≤ 0xFFFE then (s.g1.hram.read (b.toNat - 0xFF80), s)
  else ioExtRead8 b s

/-- A read that is neither blocked nor gated (R221). -/
def openRead1 (a : Half) (s : State) : Byte × State :=
  match bootOverlay s (echo a) with
  | some m => (m.read (echo a).toNat, s)
  | none => regionRead1 (echo a) s

/-- `Read1(m, a)` (R221): only the CPU is blocked and gated (R122). -/
def read1 (m : Master) (a : Half) (s : State) : Byte × State :=
  match m, heldBack s a with
  | .cpu, some v => (v, s)
  | _, _ => openRead1 a s

/-- Stores in video RAM. -/
def writeVram (i : Nat) (v : Byte) (s : State) : State := { s with g1.vram := s.g1.vram.write i v }

/-- Stores in work RAM. -/
def writeWram (i : Nat) (v : Byte) (s : State) : State := { s with g1.wram := s.g1.wram.write i v }

/-- Stores in object memory. -/
def writeOam (i : Nat) (v : Byte) (s : State) : State := { s with g1.oam := s.g1.oam.write i v }

/-- Stores in high RAM. -/
def writeHram (i : Nat) (v : Byte) (s : State) : State := { s with g1.hram := s.g1.hram.write i v }

/-- What a write that reaches its location does, by region (R224). -/
def regionWrite1 (b : Half) (v : Byte) (s : State) : Res State :=
  if b ≤ 0x7FFF then .next (writeControl b v s)
  else if b ≤ 0x9FFF then .next (writeVram (vramIndex s.g1.vbk (b.toNat - 0x8000)) v s)
  else if b ≤ 0xBFFF then writeRam b v s
  else if b ≤ 0xDFFF then .next (writeWram (wramIndex s b) v s)
  else if b ≤ 0xFE9F then .next (writeOam (b.toNat - 0xFE00) v s)
  else if b ≤ 0xFEFF then .next s
  else if b ≤ 0xFF7F then ioWrite1 b v s
  else if b ≤ 0xFFFE then .next (writeHram (b.toNat - 0xFF80) v s)
  else .next (emit (.ioWrite8 b v) s)

/-- `Write1(m, a, v)` (R224): a CPU write held back is dropped. -/
def write1 (m : Master) (a : Half) (v : Byte) (s : State) : Res State :=
  match m, heldBack s a with
  | .cpu, some _ => .next s
  | _, _ => regionWrite1 (echo a) v s

end Sys2Proof.Machine
end

