-- ==== Sys2Proof/Machine/Gen1Dma.lean ====
section
/-! DEFINITION. The DMA engines of generation 1 as they run in a cycle (46_dma_gen1.md R453 to R455, R466
to R469). -/
namespace Sys2Proof.Machine

/-! ### The object-memory DMA -/

/-- `OamComplete()` (R455). -/
def oamComplete (s : State) : State :=
  { setOamDma { s.g1.oamDma with state := .inactive } s with g1.blocked := .none }

/-- The byte of one unit stored and counted (R454). -/
def oamStore (b : Byte) (s : State) : State :=
  { setOamDma { s.g1.oamDma with index := s.g1.oamDma.index + 1 } (writeOam s.g1.oamDma.index b s) with
    g1.dmaLastByte := b }

/-- What follows a unit: completion, or the next unit's count (R454). -/
def oamNext (s : State) : State :=
  if s.g1.oamDma.index = 160 then oamComplete s
  else setOamDma { s.g1.oamDma with counter := s.cfg.timing.oamUnit } s

/-- The address of the next unit (R454). -/
def oamAddr (d : OamDma) : Half := d.src + BitVec.ofNat 16 d.index

/-- One unit (R454), read unblocked and ungated (R122). -/
def oamUnit (s : State) : State :=
  oamNext (oamStore (read1 .oam (oamAddr s.g1.oamDma) s).1 (read1 .oam (oamAddr s.g1.oamDma) s).2)

/-- The channel's counter, one less. -/
def oamCount (s : State) : State :=
  setOamDma { s.g1.oamDma with counter := s.g1.oamDma.counter - 1 } s

/-- `OamTick1()` (R453, R454): one part a cycle, by the state at its start. -/
def oamTick1 (s : State) : State :=
  match s.g1.oamDma.state with
  | .inactive => s
  | .starting => if s.g1.oamDma.counter - 1 = 0 then oamEnterActive (oamCount s) else oamCount s
  | .active => if s.g1.oamDma.counter - 1 = 0 then oamUnit (oamCount s) else oamCount s

/-! ### The video-RAM DMA -/

/-- Whether a source is forbidden (R469). -/
def vdmaForbidden (a : Half) : Bool := decide (0x8000 ≤ a ∧ a ≤ 0x9FFF) || decide (0xE000 ≤ a)

/-- `VdmaSrcRead(a)` (R469). -/
def vdmaSrcRead (a : Half) (s : State) : Byte × State :=
  if vdmaForbidden a then drawByte s else read1 .vdma a s

/-- The running addresses moved by one byte (R466). -/
def vdmaStep (d : Vdma) : Vdma := { d with src := d.src + 1, dst := d.dst + 1 }

/-- One byte of a block stored (R466), in the bank selected now (R468). -/
def vdmaStore (b : Byte) (s : State) : State :=
  setVdma (vdmaStep s.g1.vdma) (writeVram (vramIndex s.g1.vbk s.g1.vdma.dst.toNat) b s)

/-- One byte of a block (R466). -/
def vdmaByte (s : State) : State :=
  vdmaStore (vdmaSrcRead s.g1.vdma.src s).1 (vdmaSrcRead s.g1.vdma.src s).2

/-- `n` bytes of a block. -/
def vdmaBytes : Nat → State → State
  | 0, s => s
  | n + 1, s => vdmaBytes n (vdmaByte s)

/-- The channel after a block (R466). -/
def vdmaAfterBlock (t : Timing) (d : Vdma) : Vdma :=
  if d.blocks - 1 = 0 then { d with blocks := d.blocks - 1, state := .inactive, status := 0xFF }
  else if d.mode = .general then { d with blocks := d.blocks - 1, counter := t.vdmaBlock }
  else { d with blocks := d.blocks - 1, state := .paused }

/-- One block (R466). -/
def vdmaBlock (s : State) : State :=
  setVdma (vdmaAfterBlock s.cfg.timing (vdmaBytes 16 s).g1.vdma) (vdmaBytes 16 s)

/-- The channel's counter, one less. -/
def vdmaCount (s : State) : State := setVdma { s.g1.vdma with counter := s.g1.vdma.counter - 1 } s

/-- `VdmaTick1()` (R466). -/
def vdmaTick1 (s : State) : State :=
  if s.g1.vdma.state = .active then
    (if s.g1.vdma.counter - 1 = 0 then vdmaBlock (vdmaCount s) else vdmaCount s)
  else s

/-- `VdmaHBlank()` (R467). -/
def vdmaHBlank (s : State) : State :=
  if s.g1.vdma.state = .paused ∧ s.g1.vdma.mode = .hblank then
    setVdma { s.g1.vdma with state := .active, counter := s.cfg.timing.vdmaBlock } s
  else s

/-- One cycle of generation 1 (R227, R473). -/
def gen1Tick1 (s : State) : State :=
  if s.cfg.cgb then vdmaTick1 (oamTick1 s) else oamTick1 s

end Sys2Proof.Machine
end

