-- ==== Sys2Proof/Machine/Register.lean ====
section
/-! DEFINITION. The Register primitive (40_register.md R200 to R205). -/
namespace Sys2Proof.Machine

/-- `Register.Read()` (R201). -/
def Reg16.read (r : Reg16) : Half := r.value &&& r.readMask

/-- The value `Register.Write(data, byte_mask)` stores (R202). -/
def Reg16.stored (r : Reg16) (d byteMask : Half) : Half :=
  (r.value &&& ~~~(r.writeMask &&& byteMask)) ||| (d &&& r.writeMask)

/-- `Register.Write(data, byte_mask)` (R202); data outside the byte mask is a fault (R204). -/
def Reg16.write (r : Reg16) (d byteMask : Half) : Res Reg16 :=
  if d &&& ~~~byteMask = 0 then .next { r with value := r.stored d byteMask }
  else .fault .registerData

end Sys2Proof.Machine
end

