-- ==== Sys2Proof/Machine/Gen2Dma.lean ====
section
/-! DEFINITION. The DMA registers of generation 2 and what their writes do to a channel (47_dma_gen2.md
R490 to R499, R508). -/
namespace Sys2Proof.Machine

/-! ### Cells (R180, R491) -/

/-- The six register cells of a channel. -/
inductive DmaCell
  | sadL | sadH | dadL | dadH | cntL | cntH
  deriving DecidableEq, Repr

/-- The cell at an offset into a channel's registers (R491). -/
def cellAt (off : Nat) : DmaCell :=
  if off / 2 = 0 then .sadL
  else if off / 2 = 1 then .sadH
  else if off / 2 = 2 then .dadL
  else if off / 2 = 3 then .dadH
  else if off / 2 = 4 then .cntL
  else .cntH

/-- The register in a cell. -/
def DmaChannel.cell (c : DmaChannel) (x : DmaCell) : Reg16 :=
  match x with
  | .sadL => c.sadL
  | .sadH => c.sadH
  | .dadL => c.dadL
  | .dadH => c.dadH
  | .cntL => c.cntL
  | .cntH => c.cntH

/-- The channel with the register in a cell replaced. -/
def DmaChannel.setCell (c : DmaChannel) (x : DmaCell) (r : Reg16) : DmaChannel :=
  match x with
  | .sadL => { c with sadL := r }
  | .sadH => { c with sadH := r }
  | .dadL => { c with dadL := r }
  | .dadH => { c with dadH := r }
  | .cntL => { c with cntL := r }
  | .cntH => { c with cntH := r }

/-- The channel of a DMA register address (R491). -/
def dmaChanOf (u : Word) : Chan :=
  if u < 0x040000BC then .c0
  else if u < 0x040000C8 then .c1
  else if u < 0x040000D4 then .c2
  else .c3

/-- The offset of a DMA register address in its channel's registers (R491). -/
def dmaOffOf (u : Word) : Nat := (u - dmaBase (dmaChanOf u)).toNat

/-- The cell of a DMA register address. -/
def dmaCellOf (u : Word) : DmaCell := cellAt (dmaOffOf u)

/-- Whether an address is one of the DMA registers (R107). -/
def isDmaReg (u : Word) : Bool := decide (0x040000B0 ≤ u) && decide (u ≤ 0x040000DF)

/-! ### Activation (R494, R496) -/

/-- FIFO mode: special timing on channel 1 or 2 (R494). -/
def fifoMode (k : Chan) (ctl : Half) : Bool := timing ctl == 3 && (k == .c1 || k == .c2)

/-- The units of an activation (R496). -/
def unitCount (k : Chan) (fifo : Bool) (cnt : Half) : Nat :=
  if fifo then 4 else if cnt = 0 then maxUnits k else cnt.toNat

/-- `DmaStart(k)` (R494). -/
def dmaStart (t : Timing) (c : DmaChannel) : DmaChannel :=
  if t.gbaStart = 0 then { c with state := .active, counter := t.gbaUnit }
  else { c with state := .starting, counter := t.gbaStart }

/-- The channel with its registers latched (R494). -/
def dmaLatch (k : Chan) (c : DmaChannel) : DmaChannel :=
  { c with
    src := c.sad &&& srcMask k, dst := c.dad &&& dstMask k,
    fifo := fifoMode k c.cntH.value,
    remaining := unitCount k (fifoMode k c.cntH.value) c.cntL.value,
    srcInvalid := decide (c.sad &&& srcMask k < 0x2000000), stop := false, eepromWrote := false }

/-- `DmaEnable(k)` (R494). -/
def dmaEnable (t : Timing) (k : Chan) (c : DmaChannel) : DmaChannel :=
  if timing c.cntH.value = 0 then dmaStart t (dmaLatch k c)
  else { dmaLatch k c with state := .paused }

/-- The refusal of an enabling control value (R499), by the destination the channel would latch. -/
def enableRefusal (k : Chan) (dst : BitVec 28) (ctl : Half) : Option Refusal :=
  if srcCtl ctl = 3 then some .dmaSrcCtl3
  else if k = .c3 ∧ drqBit ctl = true then some .dmaDrq
  else if timing ctl = 3 ∧ (k = .c0 ∨ k = .c3) then some .dmaSpecialTiming
  else if timing ctl = 3 ∧ isFifo dst = false then some .dmaFifoDest
  else none

/-! ### Disabling (R508) -/

/-- A channel that stops (R508). -/
def dmaStopped (c : DmaChannel) : DmaChannel := { c with state := .inactive, stop := false }

/-- `DmaHalt(k)` (R508). -/
def dmaHalt (k : Chan) (s : State) : State :=
  setChan k (dmaStopped (chan (streamBoundary k s) k)) (streamBoundary k s)

/-- `DmaDisable(k)` (R508). -/
def dmaDisable (k : Chan) (s : State) : State :=
  match (chan s k).state with
  | .paused => dmaHalt k s
  | .starting => dmaHalt k s
  | .active => setChan k { chan s k with stop := true } s
  | .inactive => s

/-! ### Register writes and reads (R491, R492) -/

/-- What an edge of the enable bit does (R491): `old` is the bit before the store. -/
def enableEdge (k : Chan) (old : Bool) (s : State) : State :=
  if old = false ∧ enableBit (chan s k).cntH.value = true then
    setChan k (dmaEnable s.cfg.timing k (chan s k)) s
  else if old = true ∧ enableBit (chan s k).cntH.value = false then dmaDisable k s
  else s

/-- The refusal a register write meets (R491, R499): a control write that raises the enable bit is
checked against the value it would store. -/
def regRefusal (k : Chan) (x : DmaCell) (c : DmaChannel) (d mask : Half) : Option Refusal :=
  if x = .cntH ∧ enableBit c.cntH.value = false ∧ enableBit (c.cntH.stored d mask) = true then
    enableRefusal k (c.dad &&& dstMask k) (c.cntH.stored d mask)
  else none

/-- The store and its edge, once nothing refuses it (R491). -/
def dmaRegStore (k : Chan) (x : DmaCell) (d mask : Half) (s : State) : Res State :=
  bindR ((chan s k).cell x |>.write d mask) fun r =>
    .next (enableEdge k (enableBit (chan s k).cntH.value) (setChan k ((chan s k).setCell x r) s))

/-- `DmaRegWrite(u, d, bm)` (R491) on a channel's cell. -/
def dmaCellWrite (k : Chan) (x : DmaCell) (d mask : Half) (s : State) : Res State :=
  match regRefusal k x (chan s k) d mask with
  | some r => .refused r
  | none => dmaRegStore k x d mask s

/-- `DmaRegWrite(u, d, bm)` (R491). -/
def dmaRegWrite (u : Word) (d mask : Half) (s : State) : Res State :=
  dmaCellWrite (dmaChanOf u) (dmaCellOf u) d mask s

/-- `DmaRegRead(u)` (R492) on a channel's cell: the control register, else a draw. -/
def dmaCellRead (k : Chan) (x : DmaCell) (s : State) : Half × State :=
  if x = .cntH then ((chan s k).cntH.read, s) else drawHalf s

/-- `DmaRegRead(u)` (R492). -/
def dmaRegRead (u : Word) (s : State) : Half × State := dmaCellRead (dmaChanOf u) (dmaCellOf u) s

end Sys2Proof.Machine
end

