-- ==== Sys2Proof/Machine/Gen2Bus.lean ====
section
/-! DEFINITION. The bus of generation 2: `Read2` and `Write2` (41_bus.md R222, R225), open bus
(20_memory.md R116, R117), the boot-ROM protection (60_exceptions.md R620). -/
namespace Sys2Proof.Machine

/-! ### Reads -/

/-- `draw(8n)` (R18). -/
def drawWidth (w : Width) (s : State) : Word × State := (w.cut (drawWord s).1, (drawWord s).2)

/-- `Unmapped(m, a, n)` (R222, R116, R117). -/
def unmapped (m : Master) (a : Word) (w : Width) (s : State) : Word × State :=
  match m with
  | .cpu => (laneOf (openBusWord s.cfg s.host.cpu) a w, s)
  | _ => drawWidth w s

/-- The boot-ROM latch after an access while the CPU runs inside the boot ROM (R620). -/
def latchBios (k : AccessKind) (a : Word) (s : State) : State :=
  match k with
  | .fetch => { s with g2.biosLatch := readLE s.cfg.bios (align .b4 a).toNat .b4 }
  | .data => s

/-- `BiosRead(m, kind, a', n)` (R620). -/
def biosRead (m : Master) (k : AccessKind) (a : Word) (w : Width) (s : State) : Word × State :=
  match m with
  | .cpu =>
    if s.host.cpu.pcInBios then (readLE s.cfg.bios a.toNat w, latchBios k a s)
    else (laneOf s.g2.biosLatch a w, s)
  | _ => drawWidth w s

/-- `io_ext.read16` (R229): the access is sent out, and its value is a draw. -/
def ioExtRead16 (u : Word) (s : State) : Half × State :=
  ((drawHalf s).1, emit (.ioRead16 u) (drawHalf s).2)

/-- `IoRead2(u)` (R229). -/
def ioRead2 (u : Word) (s : State) : Half × State :=
  if isDmaReg u then dmaRegRead u s else ioExtRead16 u s

/-- The regions 0x00 to 0x03 (R222), by the page and the aligned address. -/
def lowRead2 (m : Master) (k : AccessKind) (a : Word) (w : Width) (s : State) : Word × State :=
  if page a = 0x00 then
    (if align w a < 0x4000 then biosRead m k (align w a) w s else unmapped m a w s)
  else if page a = 0x02 then (readLE s.g2.ewram (maskAddr (align w a) 0x3FFFF) w, s)
  else if page a = 0x03 then (readLE s.g2.iwram (maskAddr (align w a) 0x7FFF) w, s)
  else unmapped m a w s

/-- The regions 0x04 to 0x07 (R222). -/
def midRead2 (m : Master) (a : Word) (w : Width) (s : State) : Word × State :=
  if page a = 0x04 then
    (if align w a < 0x04000400 then compose16 ioRead2 (align w a) w s else unmapped m a w s)
  else if page a = 0x05 then (readLE s.g2.pal (maskAddr (align w a) 0x3FF) w, s)
  else if page a = 0x06 then (readLE s.g2.vram2 (vramOff (align w a)) w, s)
  else (readLE s.g2.oam2 (maskAddr (align w a) 0x3FF) w, s)

/-- `Read2(m, kind, a, n)` (R222). -/
def read2 (m : Master) (k : AccessKind) (a : Word) (w : Width) (s : State) : Word × State :=
  if page a < 0x04 then lowRead2 m k a w s
  else if page a < 0x08 then midRead2 m a w s
  else if page a < 0x0E then compose16 cartRead16 (align w a) w s
  else if page a < 0x10 then (storageRead a w s, s)
  else unmapped m a w s

/-! ### Writes -/

/-- `IoWrite2(u, d, bm)` (R229). -/
def ioWrite2 (u : Word) (d mask : Half) (s : State) : Res State :=
  if isDmaReg u then dmaRegWrite u d mask s else .next (emit (.ioWrite16 u d mask) s)

/-- A byte stored in both halves of its halfword (R115). -/
def storeTwice (m : Image) (o : Nat) (v : Byte) : Image := (m.write o v).write (o + 1) v

/-- A write of palette RAM (R225, R115). -/
def writePal (a : Word) (w : Width) (v : Word) (s : State) : State :=
  match w with
  | .b1 => { s with g2.pal := storeTwice s.g2.pal (maskAddr a 0x3FE) (lane v 0) }
  | _ => { s with g2.pal := storeLE s.g2.pal (maskAddr a 0x3FF) w v }

/-- A write of video RAM (R225, R115). -/
def writeVram2 (a : Word) (w : Width) (v : Word) (s : State) : State :=
  match w with
  | .b1 =>
    if vramOff a < s.host.bgLimit.value then
      { s with g2.vram2 := storeTwice s.g2.vram2 (vramOff a / 2 * 2) (lane v 0) }
    else s
  | _ => { s with g2.vram2 := storeLE s.g2.vram2 (vramOff a) w v }

/-- A write of object memory (R225, R115). -/
def writeOam2 (a : Word) (w : Width) (v : Word) (s : State) : State :=
  match w with
  | .b1 => s
  | _ => { s with g2.oam2 := storeLE s.g2.oam2 (maskAddr a 0x3FF) w v }

/-- The regions 0x00 to 0x03 (R225): the boot ROM and unmapped addresses ignore writes. -/
def lowWrite2 (a : Word) (w : Width) (v : Word) (s : State) : State :=
  if page a = 0x02 then { s with g2.ewram := storeLE s.g2.ewram (maskAddr (align w a) 0x3FFFF) w v }
  else if page a = 0x03 then
    { s with g2.iwram := storeLE s.g2.iwram (maskAddr (align w a) 0x7FFF) w v }
  else s

/-- The regions 0x04 to 0x07 (R225). -/
def midWrite2 (a : Word) (w : Width) (v : Word) (s : State) : Res State :=
  if page a = 0x04 then
    (if align w a < 0x04000400 then compose16W ioWrite2 (align w a) w v s else .next s)
  else if page a = 0x05 then .next (writePal (align w a) w v s)
  else if page a = 0x06 then .next (writeVram2 (align w a) w v s)
  else .next (writeOam2 (align w a) w v s)

/-- `Write2(m, a, n, v)` (R225). -/
def write2 (m : Master) (a : Word) (w : Width) (v : Word) (s : State) : Res State :=
  if page a < 0x04 then .next (lowWrite2 a w v s)
  else if page a < 0x08 then midWrite2 a w v s
  else if page a < 0x0E then compose16W (cartWrite16 m) (align w a) w v s
  else if page a < 0x10 then storageWrite a w v s
  else .next s

end Sys2Proof.Machine
end

