-- ==== Sys2Proof/Machine/Gen2Run.lean ====
section
/-! DEFINITION. The DMA engine of generation 2 as it runs in a cycle, its completion and its triggers
(47_dma_gen2.md R497, R498, R501 to R503, R508, R510). -/
namespace Sys2Proof.Machine

/-! ### One unit -/

/-- The unit width w (R497). -/
def unitWidth (c : DmaChannel) : Width := if c.fifo || widthBit c.cntH.value then .b4 else .b2

/-- The running addresses after a unit (R498). `c₀` is the channel as the unit began: its control gives the
width and the steps, since a control that the unit itself writes holds from the next unit on (R491, R653;
log 30). -/
def adjust (k : Chan) (c₀ c : DmaChannel) : DmaChannel :=
  { c with
    src := stepAddr (srcCtl c₀.cntH.value) (unitWidth c₀).bytes c.src (srcMask k),
    dst :=
      if c.fifo then c.dst
      else stepAddr (destCtl c₀.cntH.value) (unitWidth c₀).bytes c.dst (dstMask k) }

/-- Whether a completion repeats (R510 step 3). -/
def repeats (c : DmaChannel) : Bool :=
  repeatBit c.cntH.value && timing c.cntH.value != 0 && enableBit c.cntH.value && !c.stop

/-- The destination a repeating completion leaves (R510 step 3). -/
def reloadDst (k : Chan) (c : DmaChannel) : BitVec 28 :=
  if destCtl c.cntH.value = 3 ∧ c.fifo = false then c.dad &&& dstMask k else c.dst

/-- The channel a completion leaves (R510 step 3). -/
def completed (k : Chan) (c : DmaChannel) : DmaChannel :=
  if repeats c then
    { c with remaining := unitCount k c.fifo c.cntL.value, dst := reloadDst k c, state := .paused }
  else { c with cntH.value := clearEnable c.cntH.value, state := .inactive, stop := false }

/-- R510 step 2: the interrupt request, where `IRQ` is set. -/
def requestIfIrq (k : Chan) (s : State) : State :=
  if irqBit (chan s k).cntH.value then requestInterrupt k s else s

/-- R510 steps 1 and 2. -/
def beforeReload (k : Chan) (s : State) : State := requestIfIrq k (streamBoundary k s)

/-- `DmaComplete(k)` (R510). -/
def dmaComplete (k : Chan) (s : State) : State :=
  setChan k (completed k (chan (beforeReload k s) k)) (beforeReload k s)

/-- The channel adjusted and counted down by a unit that began with `c₀` (R503). -/
def counted (k : Chan) (c₀ c : DmaChannel) : DmaChannel :=
  { adjust k c₀ c with remaining := c.remaining - 1 }

/-- The end of a unit (R503). -/
def afterUnit (k : Chan) (s : State) : State :=
  if (chan s k).remaining = 0 then dmaComplete k s
  else if (chan s k).stop then dmaHalt k s
  else s

/-- What a unit reads (R503, R507). -/
def unitRead (k : Chan) (s : State) : Word × State :=
  if (chan s k).srcInvalid then drawWidth (unitWidth (chan s k)) s
  else read2 (.chan k) .data ((chan s k).src.setWidth 32) (unitWidth (chan s k)) s

/-- What a unit writes (R503). -/
def unitWrite (k : Chan) (v : Word) (s : State) : Res State :=
  write2 (.chan k) ((chan s k).dst.setWidth 32) (unitWidth (chan s k)) v s

/-- `DmaUnit(k)` (R503); with no unit left it is a fault (R513, R602), raised here, where the unit is due,
and not before: DESIGN CHOICE (log 31). -/
def dmaUnit (k : Chan) (s : State) : Res State :=
  if (chan s k).remaining = 0 then .fault .dmaZeroUnits
  else
    bindR (unitWrite k (unitRead k s).1 (unitRead k s).2) fun t =>
      .next (afterUnit k (setChan k (counted k (chan s k) (chan t k)) t))

/-! ### One cycle (R502) -/

/-- The lowest-index Active channel (R504). -/
def winner (c : Channels) : Option Chan :=
  if c.c0.state = .active then some .c0
  else if c.c1.state = .active then some .c1
  else if c.c2.state = .active then some .c2
  else if c.c3.state = .active then some .c3
  else none

/-- The unit counter restarted after a unit that leaves the channel Active (R502). -/
def rearm (k : Chan) (s : State) : State :=
  if (chan s k).state = .active then setChan k { chan s k with counter := s.cfg.timing.gbaUnit } s
  else s

/-- The channel's counter, one less. -/
def chanCount (k : Chan) (s : State) : State :=
  setChan k { chan s k with counter := (chan s k).counter - 1 } s

/-- The winning channel's part of a cycle (R502). -/
def runWinner (k : Chan) (s : State) : Res State :=
  if (chan s k).counter - 1 = 0 then bindR (dmaUnit k (chanCount k s)) fun t => .next (rearm k t)
  else .next (chanCount k s)

/-- A Starting channel's part of a cycle (R502): it counts down, and turns Active at 0. -/
def startCount (t : Timing) (c : DmaChannel) : DmaChannel :=
  if c.counter - 1 = 0 then { c with counter := t.gbaUnit, state := .active }
  else { c with counter := c.counter - 1 }

/-- The second loop of a cycle for one channel: `was` says that it was Starting when the cycle began. -/
def runStarting (k : Chan) (was : Bool) (s : State) : State :=
  if was ∧ (chan s k).state = .starting then setChan k (startCount s.cfg.timing (chan s k)) s else s

/-- Whether a channel is Starting. -/
def isStarting (s : State) (k : Chan) : Bool := (chan s k).state == .starting

/-- The second loop of a cycle, over the channels that were Starting in `s₀` (R502). -/
def runStartings (s₀ s : State) : State :=
  runStarting .c3 (isStarting s₀ .c3)
    (runStarting .c2 (isStarting s₀ .c2)
      (runStarting .c1 (isStarting s₀ .c1) (runStarting .c0 (isStarting s₀ .c0) s)))

/-- The first part of a cycle (R502). -/
def runActive (s : State) : Res State :=
  match winner s.g2.dma with
  | some k => runWinner k s
  | none => .next s

/-- `DmaTick1()` (R502). -/
def dmaTick1 (s : State) : Res State := bindR (runActive s) fun t => .next (runStartings s t)

/-! ### Triggers (R501) -/

/-- The events of `Trigger` (R174). -/
inductive Event
  | vblank | hblank | fifoA | fifoB
  deriving DecidableEq, Repr

/-- `Matches(k, e)` (R501). -/
def matchesEvent (c : DmaChannel) (e : Event) : Bool :=
  (timing c.cntH.value == 1 && e == .vblank) || (timing c.cntH.value == 2 && e == .hblank)
    || (c.fifo && ((e == .fifoA && c.dst == 0x40000A0) || (e == .fifoB && c.dst == 0x40000A4)))

/-- A channel after an event (R501). -/
def triggered (t : Timing) (e : Event) (c : DmaChannel) : DmaChannel :=
  if c.state = .paused ∧ matchesEvent c e = true then dmaStart t c else c

/-- `DmaTrigger(e)` (R501). -/
def dmaTrigger (e : Event) (s : State) : State :=
  { s with g2.dma :=
      { c0 := triggered s.cfg.timing e s.g2.dma.c0, c1 := triggered s.cfg.timing e s.g2.dma.c1,
        c2 := triggered s.cfg.timing e s.g2.dma.c2, c3 := triggered s.cfg.timing e s.g2.dma.c3 } }

end Sys2Proof.Machine
end

