-- ==== Sys2Proof/Machine/Tick.lean ====
section
/-! DEFINITION. `tick` and `Trigger` (41_bus.md R226 to R228). -/
namespace Sys2Proof.Machine

/-- Step 1 of a cycle (R227): the DMA engines. -/
def enginesTick1 (s : State) : Res State :=
  match s.cfg.gen with
  | .gen1 => .next (gen1Tick1 s)
  | .gen2 => dmaTick1 s

/-- Whether a program, an erase or an EEPROM write is in flight. -/
def storageBusy (n : Nvs2) : Bool :=
  match n with
  | .unresolved => false
  | .batteryRam _ => false
  | .eeprom e => e.busy.isSome
  | .flash f => f.busy.isSome

/-- Step 2 of a cycle (R227): the deferred storage completion. One that step 1 of this cycle put in
flight, where none was when the cycle began (`was`), first counts in the next cycle (R342, R388, R651). -/
def completionTick1 (was : Bool) (s : State) : State :=
  match s.cfg.gen with
  | .gen1 => s
  | .gen2 => if was then storageTick1 s else s

/-- `Tick1()` (R227). -/
def tick1 (s : State) : Res State :=
  bindR (enginesTick1 s) fun t => .next (completionTick1 (storageBusy s.g2.nvs2) t)

/-- `repeat n times: Tick1()` (R226); the first refusal or fault ends the call (R604). -/
def ticks : Nat → State → Res State
  | 0, s => .next s
  | n + 1, s => bindR (tick1 s) (ticks n)

/-- `tick(c)` (R226, R173). -/
def callTick (c : Int) (s : State) : Res State :=
  if c < 0 then .refused .negativeTick else ticks c.toNat s

/-- `Trigger(event)` of generation 1 (R228). HBlank on a machine that is not `CGB` has no effect (R174);
R228's last arm taken by its letter would refuse it (log 22). -/
def trigger1 (e : Event) (s : State) : Res State :=
  match e with
  | .vblank => .next s
  | .hblank => if s.cfg.cgb then .next (vdmaHBlank s) else .next s
  | .fifoA => .refused .triggerGen1
  | .fifoB => .refused .triggerGen1

/-- `Trigger(event)` (R228). -/
def callTrigger (e : Event) (s : State) : Res State :=
  match s.cfg.gen with
  | .gen1 => trigger1 e s
  | .gen2 => .next (dmaTrigger e s)

end Sys2Proof.Machine
end

