-- ==== Sys2Proof/Machine/Calls.lean ====
section
/-! DEFINITION. `read` and `write` as the caller makes them (41_bus.md R220, R223), with the checks in the
order of 60_exceptions.md R604. -/
namespace Sys2Proof.Machine

/-- The masters a machine has (R622). -/
def hasMaster (cfg : Config) (m : Master) : Bool :=
  match m with
  | .cpu => true
  | .oam => cfg.gen == .gen1
  | .vdma => cfg.gen == .gen1 && cfg.cgb
  | .chan _ => cfg.gen == .gen2

/-- A CPU access while the CPU is stalled (R236). -/
def violates (m : Master) (s : State) : Bool := m == .cpu && cpuStalled s

/-- The refusal of a `read` or `write` before it is decoded (R220, R110); the address and the master are
log 9. -/
def accessRefusal (m : Master) (a : Word) (w : Width) (s : State) : Option Refusal :=
  match s.cfg.gen with
  | .gen1 =>
    if w ≠ .b1 then some .widthGen1
    else if 0xFFFF < a then some .addressGen1
    else if hasMaster s.cfg m then none else some .noSuchMaster
  | .gen2 => if hasMaster s.cfg m then none else some .noSuchMaster

/-- The value a `read` that is let through gives (R220). -/
def busRead (m : Master) (k : AccessKind) (a : Word) (w : Width) (s : State) : Word × State :=
  match s.cfg.gen with
  | .gen1 => ((read1 m (a.setWidth 16) s).1.setWidth 32, (read1 m (a.setWidth 16) s).2)
  | .gen2 => read2 m k a w s

/-- What a `write` that is let through does (R223). -/
def busWrite (m : Master) (a : Word) (w : Width) (v : Word) (s : State) : Res State :=
  match s.cfg.gen with
  | .gen1 => write1 m (a.setWidth 16) (v.setWidth 8) s
  | .gen2 => write2 m a w v s

/-- A state with the value of a read returned. -/
def returning (r : Word × State) : State := setResult (.value r.1) r.2

/-- `read(master, kind, addr, n)` (R220). -/
def callRead (m : Master) (k : AccessKind) (a : Word) (w : Width) (s : State) : Res State :=
  if violates m s then .fault .protocolViolation
  else
    match accessRefusal m a w s with
    | some r => .refused r
    | none => .next (returning (busRead m k a w s))

/-- `write(master, addr, n, value)` (R223). -/
def callWrite (m : Master) (a : Word) (w : Width) (v : Word) (s : State) : Res State :=
  if violates m s then .fault .protocolViolation
  else
    match accessRefusal m a w s with
    | some r => .refused r
    | none => busWrite m a w v s

/-- A CPU read of one byte (R185 `RD8`). -/
def cpuRead8 (a : Word) (s : State) : Res State := callRead .cpu .data a .b1 s

/-- A CPU write of one byte (R185 `W8`). -/
def cpuWrite8 (a : Word) (v : Byte) (s : State) : Res State := callWrite .cpu a .b1 (v.setWidth 32) s

/-- What a call leaves beside its own effect: `load` may not follow (R550). -/
def afterCall (s : State) : State := { s with loadable := false }

end Sys2Proof.Machine
end

