-- ==== Sys2Proof/Machine/Construct.lean ====
section
/-! DEFINITION. Construction, the block's one reset (70_reset_and_hazards.md R640, R641): which parameters
are refused (60_exceptions.md R609, 42_bank_controllers.md R262), the state with every element at its
reset value, and `load`, which construction runs. -/
namespace Sys2Proof.Machine

/-- A power of two, at least 2 and at most `max`. -/
def bankCountOk (n max : Nat) : Bool :=
  [2, 4, 8, 16, 32, 64, 128, 256, 512].any fun m => n == m && decide (m ≤ max)

/-- The legal RAM sizes of a family (R262); Family B's is ignored. With rumble the bound of the table's
row for Family D is a legal size too (log 26). -/
def ramSizeOk (c : Cart) : Bool :=
  match c.family with
  | .romOnly => c.ramSize == 0 || c.ramSize == 0x2000
  | .a => [0, 0x800, 0x2000, 0x8000].contains c.ramSize
  | .b => true
  | .c => [0, 0x800, 0x2000, 0x8000].contains c.ramSize
  | .d => if c.hasRumble then [0, 0x800, 0x2000, 0x8000, 0x10000].contains c.ramSize
      else [0, 0x800, 0x2000, 0x8000, 0x20000].contains c.ramSize

/-- The greatest bank count of a family (R262). -/
def maxBanks : Family → Nat
  | .romOnly => 2
  | .a => 128
  | .b => 16
  | .c => 128
  | .d => 512

/-- Legal cartridge metadata (R262). -/
def cartOk (c : Cart) : Bool :=
  bankCountOk c.romBankCount (maxBanks c.family) && ramSizeOk c
    && (!c.hasRtc || c.family == .c) && (!c.hasRumble || c.family == .d)

/-- A boot ROM of a legal length (R609). -/
def bootOk (b : Option Image) : Bool :=
  match b with
  | none => true
  | some m => m.size == 0x100 || m.size == 0x900

/-- Legal timing parameters (R609): only the start delays may be 0. -/
def timingOk (t : Timing) : Bool :=
  decide (1 ≤ t.eepromWrite) && decide (1 ≤ t.flashProgram) && decide (1 ≤ t.flashEraseSector)
    && decide (1 ≤ t.flashEraseChip) && decide (1 ≤ t.oamUnit) && decide (1 ≤ t.vdmaBlock)
    && decide (1 ≤ t.gbaUnit)

/-- The refusal of generation-1 parameters (R609). -/
def refusal1 (c : Config) : Option Construction :=
  if cartOk c.cart = false then some .metadata
  else if bootOk c.boot = false then some .bootLength
  else none

/-- The refusal of generation-2 parameters (R609). -/
def refusal2 (c : Config) : Option Construction :=
  if c.cgb then some .cgbUnderGen2
  else if c.bios.size ≠ 0x4000 then some .biosLength
  else if 0x02000000 < c.rom.size then some .romTooLong
  else none

/-- The refusal of a construction (R609). A negative `EEPROM_PREAMBLE_BITS` and an illegal
`vram_bg_limit` cannot be written down. -/
def constructionRefusal (c : Config) : Option Construction :=
  if c.cart.otherDevice then some .unsupportedDevice
  else if timingOk c.timing = false then some .timing
  else
    match c.gen with
    | .gen1 => refusal1 c
    | .gen2 => refusal2 c

/-- `S.nvs1` before `load` (R42). -/
def nvs1Of (c : Cart) : Option Nvs1 :=
  if c.family = .b then some { bytes := drawn 512 5, persist := c.hasBattery }
  else if c.ramSize = 0 then none
  else some { bytes := drawn c.ramSize 5, persist := c.hasBattery }

/-- The generation-1 state after construction (R641). -/
def gen1Of (c : Config) (now : Int) : Gen1 :=
  { bootEnabled := c.boot.isSome, vram := drawn (if c.cgb then 0x4000 else 0x2000) 1, vbk := 0,
    wram := drawn (if c.cgb then 0x8000 else 0x2000) 2, svbk := 0, oam := drawn 160 3,
    hram := drawn 127 4, blocked := .none, dmaLastByte := 0xFF, oamDma := .reset, vdma := .reset,
    bank := .reset, rumble := false, rtc := .fresh now, nvs1 := nvs1Of c.cart }

/-- `S.nvs2` of a block without a save file: by the override, else `Unresolved` (R641, R562 to R564). -/
def nvs2Of (c : Config) : Nvs2 :=
  match c.saveOverride with
  | none => .unresolved
  | some v => variantOf c v (freshBytes v 11)

/-- The state with every element at its reset value and no save file (R640 step 2, R641). `load` may be
made on it (R640 step 3); a caller that makes none has the block without a file (log 28). -/
def State.ofConfig (c : Config) (h : HostIn) : State :=
  { cfg := c, host := h, pending := [], loadable := true, result := .none, outs := [], draws := 16,
    g1 := gen1Of c h.now, g2 := { State.reset.g2 with nvs2 := nvs2Of c } }

/-- Construction (R640): the parameters checked, the reset values set, `load` run. What it leaves accepts
every call but a second `load` (R550). -/
def construct (c : Config) (h : HostIn) (f : SaveFile) : Res State :=
  match constructionRefusal c with
  | some w => .refused (.construction w)
  | none => bindR (callLoad f (State.ofConfig c h)) fun t => .next (afterCall t)

end Sys2Proof.Machine
end

