-- ==== Sys2Proof/Machine/GbIo.lean ====
section
/-! DEFINITION. The rows of the generation-1 I/O registers (41_bus.md R229 to R234, 46_dma_gen1.md). Each is the CPU
access its word names, which the bus routes to the register (log 6). -/
namespace Sys2Proof.Machine

/-- A generation-1 address on the bus (R100). -/
def gbAddr (a : Half) : Word := a.setWidth 32

/-- `GB_DMA_WRITE` (R451: 0xFF46). -/
def execGbDmaWrite (v : Byte) (s : State) : Res State :=
  cpuWrite8 0xFF46 v s

/-- `GB_VBK_WRITE` (R231: 0xFF4F). -/
def execGbVbkWrite (v : Byte) (s : State) : Res State :=
  cpuWrite8 0xFF4F v s

/-- `GB_BOOT_WRITE` (R232: 0xFF50). -/
def execGbBootWrite (v : Byte) (s : State) : Res State :=
  cpuWrite8 0xFF50 v s

/-- `GB_HDMA1` (R461: 0xFF51). -/
def execGbHdma1 (v : Byte) (s : State) : Res State :=
  cpuWrite8 0xFF51 v s

/-- `GB_HDMA2` (R461: 0xFF52). -/
def execGbHdma2 (v : Byte) (s : State) : Res State :=
  cpuWrite8 0xFF52 v s

/-- `GB_HDMA3` (R461: 0xFF53). -/
def execGbHdma3 (v : Byte) (s : State) : Res State :=
  cpuWrite8 0xFF53 v s

/-- `GB_HDMA4` (R461: 0xFF54). -/
def execGbHdma4 (v : Byte) (s : State) : Res State :=
  cpuWrite8 0xFF54 v s

/-- `GB_HDMA5_GDMA` (R462: 0xFF55, bit 7 = 0). -/
def execGbHdma5Gdma (len : BitVec 7) (s : State) : Res State :=
  cpuWrite8 0xFF55 (0#1 ++ len) s

/-- `GB_HDMA5_HDMA` (R463: 0xFF55, bit 7 = 1). -/
def execGbHdma5Hdma (len : BitVec 7) (s : State) : Res State :=
  cpuWrite8 0xFF55 (1#1 ++ len) s

/-- `GB_HDMA5_CANCEL` (R464: 0xFF55, bit 7 = 0, during an hblank transfer). -/
def execGbHdma5Cancel (len : BitVec 7) (s : State) : Res State :=
  cpuWrite8 0xFF55 (0#1 ++ len) s

/-- `GB_HDMA5_RESTART` (R465: 0xFF55, bit 7 = 1, during an hblank transfer). -/
def execGbHdma5Restart (len : BitVec 7) (s : State) : Res State :=
  cpuWrite8 0xFF55 (1#1 ++ len) s

/-- `GB_SVBK_WRITE` (R233: 0xFF70). -/
def execGbSvbkWrite (v : Byte) (s : State) : Res State :=
  cpuWrite8 0xFF70 v s

/-- `GB_DMA_READ` (R230: 0xFF46). -/
def execGbDmaRead (s : State) : Res State :=
  cpuRead8 0xFF46 s

/-- `GB_VBK_READ` (R231: 0xFF4F). -/
def execGbVbkRead (s : State) : Res State :=
  cpuRead8 0xFF4F s

/-- `GB_BOOT_READ` (R232: 0xFF50). -/
def execGbBootRead (s : State) : Res State :=
  cpuRead8 0xFF50 s

/-- `GB_HDMA1_READ` (R461: 0xFF51). -/
def execGbHdma1Read (s : State) : Res State :=
  cpuRead8 0xFF51 s

/-- `GB_HDMA2_READ` (R461: 0xFF52). -/
def execGbHdma2Read (s : State) : Res State :=
  cpuRead8 0xFF52 s

/-- `GB_HDMA3_READ` (R461: 0xFF53). -/
def execGbHdma3Read (s : State) : Res State :=
  cpuRead8 0xFF53 s

/-- `GB_HDMA4_READ` (R461: 0xFF54). -/
def execGbHdma4Read (s : State) : Res State :=
  cpuRead8 0xFF54 s

/-- `GB_HDMA5_READ` (R470: 0xFF55). -/
def execGbHdma5Read (s : State) : Res State :=
  cpuRead8 0xFF55 s

/-- `GB_SVBK_READ` (R233: 0xFF70). -/
def execGbSvbkRead (s : State) : Res State :=
  cpuRead8 0xFF70 s

/-- `GB_IO_FORWARD_READ` (R229: 0xFF00 + a, an address the block does not own). -/
def execGbIoForwardRead (a : BitVec 7) (s : State) : Res State :=
  cpuRead8 (gbAddr (0b111111110#9 ++ a)) s

end Sys2Proof.Machine
end

