-- ==== Sys2Proof/Machine/BankRows.lean ====
section
/-! DEFINITION. The rows of the bank controllers and of cartridge ROM (42_bank_controllers.md). Each is the CPU
access its word names; the cartridge's family gives it its effect (R269, log 6). -/
namespace Sys2Proof.Machine

/-- `A_RAMG` (R274: 0x0000 + a). -/
def execARamg (a : BitVec 13) (v : Byte) (s : State) : Res State :=
  cpuWrite8 (gbAddr (0#3 ++ a)) v s

/-- `A_ROMB0` (R271: 0x2000 + a). -/
def execARomb0 (a : BitVec 13) (v : Byte) (s : State) : Res State :=
  cpuWrite8 (gbAddr (1#3 ++ a)) v s

/-- `A_RAMB` (R272: 0x4000 + a). -/
def execARamb (a : BitVec 13) (v : Byte) (s : State) : Res State :=
  cpuWrite8 (gbAddr (2#3 ++ a)) v s

/-- `A_MODE` (R273: 0x6000 + a). -/
def execAMode (a : BitVec 13) (v : Byte) (s : State) : Res State :=
  cpuWrite8 (gbAddr (3#3 ++ a)) v s

/-- `B_RAMG` (R277: a[13:9] = hi, a[8] = 0, a[7:0] = lo). -/
def execBRamg (hi : BitVec 5) (lo : Byte) (v : Byte) (s : State) : Res State :=
  cpuWrite8 (gbAddr (0#2 ++ hi ++ 0#1 ++ lo)) v s

/-- `B_ROMB` (R277: a[13:9] = hi, a[8] = 1, a[7:0] = lo). -/
def execBRomb (hi : BitVec 5) (lo : Byte) (v : Byte) (s : State) : Res State :=
  cpuWrite8 (gbAddr (0#2 ++ hi ++ 1#1 ++ lo)) v s

/-- `B_IGNORED` (R278: 0x4000 + a). -/
def execBIgnored (a : BitVec 14) (v : Byte) (s : State) : Res State :=
  cpuWrite8 (gbAddr (1#2 ++ a)) v s

/-- `C_RAMG` (R281: 0x0000 + a). -/
def execCRamg (a : BitVec 13) (v : Byte) (s : State) : Res State :=
  cpuWrite8 (gbAddr (0#3 ++ a)) v s

/-- `C_ROMB` (R282: 0x2000 + a). -/
def execCRomb (a : BitVec 13) (v : Byte) (s : State) : Res State :=
  cpuWrite8 (gbAddr (1#3 ++ a)) v s

/-- `C_RAMB` (R283: 0x4000 + a). -/
def execCRamb (a : BitVec 13) (v : Byte) (s : State) : Res State :=
  cpuWrite8 (gbAddr (2#3 ++ a)) v s

/-- `C_LATCH` (R284: 0x6000 + a). -/
def execCLatch (a : BitVec 13) (v : Byte) (s : State) : Res State :=
  cpuWrite8 (gbAddr (3#3 ++ a)) v s

/-- `D_RAMG` (R288: 0x0000 + a). -/
def execDRamg (a : BitVec 13) (v : Byte) (s : State) : Res State :=
  cpuWrite8 (gbAddr (0#3 ++ a)) v s

/-- `D_ROMB0` (R289: 0x2000 + a). -/
def execDRomb0 (a : BitVec 12) (v : Byte) (s : State) : Res State :=
  cpuWrite8 (gbAddr (2#4 ++ a)) v s

/-- `D_ROMB1` (R290: 0x3000 + a). -/
def execDRomb1 (a : BitVec 12) (v : Byte) (s : State) : Res State :=
  cpuWrite8 (gbAddr (3#4 ++ a)) v s

/-- `D_RAMB` (R291: 0x4000 + a). -/
def execDRamb (a : BitVec 13) (v : Byte) (s : State) : Res State :=
  cpuWrite8 (gbAddr (2#3 ++ a)) v s

/-- `D_IGNORED` (R292: 0x6000 + a). -/
def execDIgnored (a : BitVec 13) (v : Byte) (s : State) : Res State :=
  cpuWrite8 (gbAddr (3#3 ++ a)) v s

/-- `NONE_IGNORED` (R270: 0x0000 + a). -/
def execNoneIgnored (a : BitVec 15) (v : Byte) (s : State) : Res State :=
  cpuWrite8 (gbAddr (0#1 ++ a)) v s

/-- `ROM_READ_LOW` (R268: 0x0000 + a). -/
def execRomReadLow (a : BitVec 14) (s : State) : Res State :=
  cpuRead8 (gbAddr (0#2 ++ a)) s

/-- `ROM_READ_HIGH` (R268: 0x4000 + a). -/
def execRomReadHigh (a : BitVec 14) (s : State) : Res State :=
  cpuRead8 (gbAddr (1#2 ++ a)) s

/-- `A_ROM_MAP` (R275: 0x0000 + a). -/
def execARomMap (a : BitVec 15) (s : State) : Res State :=
  cpuRead8 (gbAddr (0#1 ++ a)) s

/-- `B_ROM_MAP` (R279: 0x0000 + a). -/
def execBRomMap (a : BitVec 15) (s : State) : Res State :=
  cpuRead8 (gbAddr (0#1 ++ a)) s

/-- `C_ROM_MAP` (R285: 0x0000 + a). -/
def execCRomMap (a : BitVec 15) (s : State) : Res State :=
  cpuRead8 (gbAddr (0#1 ++ a)) s

/-- `D_ROM_MAP` (R293: 0x0000 + a). -/
def execDRomMap (a : BitVec 15) (s : State) : Res State :=
  cpuRead8 (gbAddr (0#1 ++ a)) s

end Sys2Proof.Machine
end

