-- ==== Sys2Proof/Machine/CallRows.lean ====
section
/-! DEFINITION. The rows of the `call` format: bus calls, `tick`, `Trigger`, `load`, `serialize` (41_bus.md, 48_persistence.md).
A `load` or `serialize` row runs the machine's own generation (log 6). -/
namespace Sys2Proof.Machine

/-- `BUS_READ8` (R220, n = 1). -/
def execBusRead8 (m : Master) (k : AccessKind) (a : Word) (s : State) : Res State :=
  callRead m k a .b1 s

/-- `BUS_READ16` (R220, n = 2). -/
def execBusRead16 (m : Master) (k : AccessKind) (a : Word) (s : State) : Res State :=
  callRead m k a .b2 s

/-- `BUS_READ32` (R220, n = 4). -/
def execBusRead32 (m : Master) (k : AccessKind) (a : Word) (s : State) : Res State :=
  callRead m k a .b4 s

/-- `BUS_WRITE8` (R223, n = 1). -/
def execBusWrite8 (m : Master) (a : Word) (v : Byte) (s : State) : Res State :=
  callWrite m a .b1 (v.setWidth 32) s

/-- `BUS_WRITE16` (R223, n = 2). -/
def execBusWrite16 (m : Master) (a : Word) (v : Half) (s : State) : Res State :=
  callWrite m a .b2 (v.setWidth 32) s

/-- `BUS_WRITE32` (R223, n = 4). -/
def execBusWrite32 (m : Master) (a : Word) (v : Word) (s : State) : Res State :=
  callWrite m a .b4 v s

/-- `TICK` (R226). -/
def execTick (c : Int) (s : State) : Res State :=
  callTick c s

/-- `TRIGGER_VBLANK` (R228). -/
def execTriggerVblank (s : State) : Res State :=
  callTrigger .vblank s

/-- `TRIGGER_HBLANK` (R228). -/
def execTriggerHblank (s : State) : Res State :=
  callTrigger .hblank s

/-- `TRIGGER_FIFOA` (R228). -/
def execTriggerFifoa (s : State) : Res State :=
  callTrigger .fifoA s

/-- `TRIGGER_FIFOB` (R228). -/
def execTriggerFifob (s : State) : Res State :=
  callTrigger .fifoB s

/-- `LOAD_GEN1` (R551). -/
def execLoadGen1 (f : SaveFile) (s : State) : Res State :=
  callLoad f s

/-- `SERIALIZE_GEN1` (R552; whether the host can write the file (R569)). -/
def execSerializeGen1 (writable : Bool) (s : State) : Res State :=
  callSerialize writable s

/-- `LOAD_GEN2` (R560). -/
def execLoadGen2 (f : SaveFile) (s : State) : Res State :=
  callLoad f s

/-- `SERIALIZE_GEN2` (R567; whether the host can write the file (R569)). -/
def execSerializeGen2 (writable : Bool) (s : State) : Res State :=
  callSerialize writable s

end Sys2Proof.Machine
end

