-- ==== Sys2Proof/Machine/CartRows.lean ====
section
/-! DEFINITION. The rows of the cartridge RAM window and of the clock (42_bank_controllers.md R305, 45_rtc.md R417 to
R419). Each is the CPU access its word names; the bank state selects the device (log 6). -/
namespace Sys2Proof.Machine

/-- `CART_RAM_WRITE` (R305: 0xA000 + a). -/
def execCartRamWrite (a : BitVec 13) (v : Byte) (s : State) : Res State :=
  cpuWrite8 (gbAddr (5#3 ++ a)) v s

/-- `RTC_WRITE_S` (R418: 0xA000 + a). -/
def execRtcWriteS (a : BitVec 13) (v : Byte) (s : State) : Res State :=
  cpuWrite8 (gbAddr (5#3 ++ a)) v s

/-- `RTC_WRITE_M` (R418: 0xA000 + a). -/
def execRtcWriteM (a : BitVec 13) (v : Byte) (s : State) : Res State :=
  cpuWrite8 (gbAddr (5#3 ++ a)) v s

/-- `RTC_WRITE_H` (R418: 0xA000 + a). -/
def execRtcWriteH (a : BitVec 13) (v : Byte) (s : State) : Res State :=
  cpuWrite8 (gbAddr (5#3 ++ a)) v s

/-- `RTC_WRITE_DL` (R418: 0xA000 + a). -/
def execRtcWriteDl (a : BitVec 13) (v : Byte) (s : State) : Res State :=
  cpuWrite8 (gbAddr (5#3 ++ a)) v s

/-- `RTC_WRITE_DH` (R419: 0xA000 + a). -/
def execRtcWriteDh (a : BitVec 13) (v : Byte) (s : State) : Res State :=
  cpuWrite8 (gbAddr (5#3 ++ a)) v s

/-- `CART_RAM_READ` (R305: 0xA000 + a). -/
def execCartRamRead (a : BitVec 13) (s : State) : Res State :=
  cpuRead8 (gbAddr (5#3 ++ a)) s

/-- `A_RAM_MAP` (R276: 0xA000 + a). -/
def execARamMap (a : BitVec 13) (s : State) : Res State :=
  cpuRead8 (gbAddr (5#3 ++ a)) s

/-- `B_RAM_MAP` (R280: 0xA000 + a). -/
def execBRamMap (a : BitVec 13) (s : State) : Res State :=
  cpuRead8 (gbAddr (5#3 ++ a)) s

/-- `C_RAM_MAP` (R287: 0xA000 + a). -/
def execCRamMap (a : BitVec 13) (s : State) : Res State :=
  cpuRead8 (gbAddr (5#3 ++ a)) s

/-- `RTC_READ` (R417: 0xA000 + a). -/
def execRtcRead (a : BitVec 13) (s : State) : Res State :=
  cpuRead8 (gbAddr (5#3 ++ a)) s

end Sys2Proof.Machine
end

