-- ==== Sys2Proof/Machine/DmaRows.lean ====
section
/-! DEFINITION. The rows of the generation-2 DMA registers (47_dma_gen2.md R491, R492, R494, R508). -/
namespace Sys2Proof.Machine

/-- `GBA_DMA0_SAD` (R491: 0x040000B0). -/
def execGbaDma0Sad (w : Width) (v : Word) (s : State) : Res State :=
  callWrite .cpu 0x040000B0 w v s

/-- `GBA_DMA0_DAD` (R491: 0x040000B4). -/
def execGbaDma0Dad (w : Width) (v : Word) (s : State) : Res State :=
  callWrite .cpu 0x040000B4 w v s

/-- `GBA_DMA0_CNT_L` (R491: 0x040000B8). -/
def execGbaDma0CntL (w : Width) (v : Word) (s : State) : Res State :=
  callWrite .cpu 0x040000B8 w v s

/-- `GBA_DMA0_CNT_H` (R491: 0x040000BA). -/
def execGbaDma0CntH (w : Width) (v : Word) (s : State) : Res State :=
  callWrite .cpu 0x040000BA w v s

/-- `GBA_DMA0_ENABLE` (R494: 0x040000BA, bit 15 = 1). -/
def execGbaDma0Enable (ctl : BitVec 15) (s : State) : Res State :=
  callWrite .cpu 0x040000BA .b2 ((1#1 ++ ctl).setWidth 32) s

/-- `GBA_DMA0_DISABLE` (R508: 0x040000BA, bit 15 = 0). -/
def execGbaDma0Disable (ctl : BitVec 15) (s : State) : Res State :=
  callWrite .cpu 0x040000BA .b2 ((0#1 ++ ctl).setWidth 32) s

/-- `GBA_DMA0_READ` (R492: 0x040000B0 + off). -/
def execGbaDma0Read (off : Fin 12) (w : Width) (s : State) : Res State :=
  callRead .cpu .data (dmaBase .c0 + BitVec.ofNat 32 off.val) w s

/-- `GBA_DMA1_SAD` (R491: 0x040000BC). -/
def execGbaDma1Sad (w : Width) (v : Word) (s : State) : Res State :=
  callWrite .cpu 0x040000BC w v s

/-- `GBA_DMA1_DAD` (R491: 0x040000C0). -/
def execGbaDma1Dad (w : Width) (v : Word) (s : State) : Res State :=
  callWrite .cpu 0x040000C0 w v s

/-- `GBA_DMA1_CNT_L` (R491: 0x040000C4). -/
def execGbaDma1CntL (w : Width) (v : Word) (s : State) : Res State :=
  callWrite .cpu 0x040000C4 w v s

/-- `GBA_DMA1_CNT_H` (R491: 0x040000C6). -/
def execGbaDma1CntH (w : Width) (v : Word) (s : State) : Res State :=
  callWrite .cpu 0x040000C6 w v s

/-- `GBA_DMA1_ENABLE` (R494: 0x040000C6, bit 15 = 1). -/
def execGbaDma1Enable (ctl : BitVec 15) (s : State) : Res State :=
  callWrite .cpu 0x040000C6 .b2 ((1#1 ++ ctl).setWidth 32) s

/-- `GBA_DMA1_DISABLE` (R508: 0x040000C6, bit 15 = 0). -/
def execGbaDma1Disable (ctl : BitVec 15) (s : State) : Res State :=
  callWrite .cpu 0x040000C6 .b2 ((0#1 ++ ctl).setWidth 32) s

/-- `GBA_DMA1_READ` (R492: 0x040000BC + off). -/
def execGbaDma1Read (off : Fin 12) (w : Width) (s : State) : Res State :=
  callRead .cpu .data (dmaBase .c1 + BitVec.ofNat 32 off.val) w s

/-- `GBA_DMA2_SAD` (R491: 0x040000C8). -/
def execGbaDma2Sad (w : Width) (v : Word) (s : State) : Res State :=
  callWrite .cpu 0x040000C8 w v s

/-- `GBA_DMA2_DAD` (R491: 0x040000CC). -/
def execGbaDma2Dad (w : Width) (v : Word) (s : State) : Res State :=
  callWrite .cpu 0x040000CC w v s

/-- `GBA_DMA2_CNT_L` (R491: 0x040000D0). -/
def execGbaDma2CntL (w : Width) (v : Word) (s : State) : Res State :=
  callWrite .cpu 0x040000D0 w v s

/-- `GBA_DMA2_CNT_H` (R491: 0x040000D2). -/
def execGbaDma2CntH (w : Width) (v : Word) (s : State) : Res State :=
  callWrite .cpu 0x040000D2 w v s

/-- `GBA_DMA2_ENABLE` (R494: 0x040000D2, bit 15 = 1). -/
def execGbaDma2Enable (ctl : BitVec 15) (s : State) : Res State :=
  callWrite .cpu 0x040000D2 .b2 ((1#1 ++ ctl).setWidth 32) s

/-- `GBA_DMA2_DISABLE` (R508: 0x040000D2, bit 15 = 0). -/
def execGbaDma2Disable (ctl : BitVec 15) (s : State) : Res State :=
  callWrite .cpu 0x040000D2 .b2 ((0#1 ++ ctl).setWidth 32) s

/-- `GBA_DMA2_READ` (R492: 0x040000C8 + off). -/
def execGbaDma2Read (off : Fin 12) (w : Width) (s : State) : Res State :=
  callRead .cpu .data (dmaBase .c2 + BitVec.ofNat 32 off.val) w s

/-- `GBA_DMA3_SAD` (R491: 0x040000D4). -/
def execGbaDma3Sad (w : Width) (v : Word) (s : State) : Res State :=
  callWrite .cpu 0x040000D4 w v s

/-- `GBA_DMA3_DAD` (R491: 0x040000D8). -/
def execGbaDma3Dad (w : Width) (v : Word) (s : State) : Res State :=
  callWrite .cpu 0x040000D8 w v s

/-- `GBA_DMA3_CNT_L` (R491: 0x040000DC). -/
def execGbaDma3CntL (w : Width) (v : Word) (s : State) : Res State :=
  callWrite .cpu 0x040000DC w v s

/-- `GBA_DMA3_CNT_H` (R491: 0x040000DE). -/
def execGbaDma3CntH (w : Width) (v : Word) (s : State) : Res State :=
  callWrite .cpu 0x040000DE w v s

/-- `GBA_DMA3_ENABLE` (R494: 0x040000DE, bit 15 = 1). -/
def execGbaDma3Enable (ctl : BitVec 15) (s : State) : Res State :=
  callWrite .cpu 0x040000DE .b2 ((1#1 ++ ctl).setWidth 32) s

/-- `GBA_DMA3_DISABLE` (R508: 0x040000DE, bit 15 = 0). -/
def execGbaDma3Disable (ctl : BitVec 15) (s : State) : Res State :=
  callWrite .cpu 0x040000DE .b2 ((0#1 ++ ctl).setWidth 32) s

/-- `GBA_DMA3_READ` (R492: 0x040000D4 + off). -/
def execGbaDma3Read (off : Fin 12) (w : Width) (s : State) : Res State :=
  callRead .cpu .data (dmaBase .c3 + BitVec.ofNat 32 off.val) w s

end Sys2Proof.Machine
end

