-- ==== Sys2Proof/Machine/EepromRows.lean ====
section
/-! DEFINITION. The rows of the EEPROM (43_storage_battery_eeprom.md R331 to R344, 48_persistence.md R566). The rows of
the stream format run a whole stream: its bits in, then its boundary (R332, log 7). -/
namespace Sys2Proof.Machine

/-- An address in page 0x0D. -/
def eepromAddr (a : BitVec 24) : Word := 0x0D#8 ++ a

/-- The bits of a stream appended, first to last (R331). -/
def appendBits (l : List Bool) (s : State) : State := l.foldl (fun s b => appendBit b s) s

/-- The state in which the stream is written: the Eeprom selected first where nothing was (R566). -/
def eepromSelected (s : State) : State :=
  if s.g2.nvs2 = .unresolved then setNvs2 (.eeprom sniffedEeprom) s else s

/-- A whole stream written to the EEPROM window by a DMA, and its boundary (R331, R332). Generation 1
has no such window: its 16-bit accesses are refused (R110). A stream of no bits is no write, so it selects no
variant (R564) and ends no stream (R332): it changes nothing (log 7). -/
def callStream (l : List Bool) (s : State) : Res State :=
  if l = [] then .next s
  else
    match s.cfg.gen with
    | .gen1 => .refused .widthGen1
    | .gen2 => .next (endStream (appendBits l (eepromSelected s)))

/-- `EEPROM_BIT_WRITE` (R331: 0x0D000000 + a, by DMA(k)). -/
def execEepromBitWrite (k : Chan) (a : BitVec 24) (d : Half) (s : State) : Res State :=
  callWrite (.chan k) (eepromAddr a) .b2 (d.setWidth 32) s

/-- `EEPROM_DRAIN_READ` (R339: 0x0D000000 + a). -/
def execEepromDrainRead (m : Master) (a : BitVec 24) (w : Width) (s : State) : Res State :=
  callRead m .data (eepromAddr a) w s

/-- `EEPROM_CPU_WRITE` (R344: 0x0D000000 + a, by the CPU). -/
def execEepromCpuWrite (a : BitVec 24) (w : Width) (v : Word) (s : State) : Res State :=
  callWrite .cpu (eepromAddr a) w v s

/-- `EEPROM_SNIFF` (R566: 0x0D000000 + a, by DMA(k)). -/
def execEepromSniff (k : Chan) (a : BitVec 24) (d : Half) (s : State) : Res State :=
  callWrite (.chan k) (eepromAddr a) .b2 (d.setWidth 32) s

/-- `EEPROM_READ6` (R337). -/
def execEepromRead6 (x : BitVec 6) (stop : Option Bool) (s : State) : Res State :=
  callStream (readBits x stop) s

/-- `EEPROM_READ14` (R337). -/
def execEepromRead14 (x : BitVec 14) (stop : Option Bool) (s : State) : Res State :=
  callStream (readBits x stop) s

/-- `EEPROM_WRITE6` (R338). -/
def execEepromWrite6 (x : BitVec 6) (d : BitVec 64) (stop : Option Bool) (s : State) : Res State :=
  callStream (writeBits x d stop) s

/-- `EEPROM_WRITE14` (R338). -/
def execEepromWrite14 (x : BitVec 14) (d : BitVec 64) (stop : Option Bool) (s : State) : Res State :=
  callStream (writeBits x d stop) s

end Sys2Proof.Machine
end

