-- ==== Sys2Proof/Machine/StorageRows.lean ====
section
/-! DEFINITION. The rows of the battery RAM and of first-write sniffing (43_storage_battery_eeprom.md R323, R324,
48_persistence.md R565). -/
namespace Sys2Proof.Machine

/-- An address in the storage window (R105). -/
def windowAddr (a : BitVec 25) : Word := 7#7 ++ a

/-- `BATTERY_RAM_READ` (R323: 0x0E000000 + a). -/
def execBatteryRamRead (a : BitVec 25) (w : Width) (s : State) : Res State :=
  callRead .cpu .data (windowAddr a) w s

/-- `BATTERY_RAM_WRITE` (R324: 0x0E000000 + a). -/
def execBatteryRamWrite (a : BitVec 25) (w : Width) (v : Word) (s : State) : Res State :=
  callWrite .cpu (windowAddr a) w v s

/-- `STORAGE_SNIFF` (R565: 0x0E000000 + a; a read, or a write of v). -/
def execStorageSniff (a : BitVec 25) (w : Width) (v : Option Word) (s : State) : Res State :=
  match v with
  | none => callRead .cpu .data (windowAddr a) w s
  | some v => callWrite .cpu (windowAddr a) w v s

end Sys2Proof.Machine
end

