-- ==== Sys2Proof/Machine/FlashRows.lean ====
section
/-! DEFINITION. The rows of the flash (44_storage_flash.md R373 to R380): the byte writes and reads of the storage
window that their words name; the command state gives each its effect (log 6). -/
namespace Sys2Proof.Machine

/-- `W8 0x0E000000 + o, v` (R182). -/
def flashByteWrite (o : Half) (v : Byte) (s : State) : Res State :=
  cpuWrite8 (0x0E00#16 ++ o) v s

/-- `FLASH_READ` (R380: 0x0E000000 + a). -/
def execFlashRead (a : BitVec 25) (w : Width) (s : State) : Res State :=
  callRead .cpu .data (windowAddr a) w s

/-- `FLASH_ID_MANUF` (R380: offset 0x0000). -/
def execFlashIdManuf (hi : BitVec 9) (w : Width) (s : State) : Res State :=
  callRead .cpu .data (windowAddr (hi ++ 0#16)) w s

/-- `FLASH_ID_DEVICE` (R380: offset 0x0001). -/
def execFlashIdDevice (hi : BitVec 9) (w : Width) (s : State) : Res State :=
  callRead .cpu .data (windowAddr (hi ++ 1#16)) w s

/-- `FLASH_UNLOCK1` (R374: 0x5555, 0xAA). -/
def execFlashUnlock1 (s : State) : Res State :=
  flashByteWrite 0x5555 0xAA s

/-- `FLASH_UNLOCK2` (R375: 0x2AAA, 0x55). -/
def execFlashUnlock2 (s : State) : Res State :=
  flashByteWrite 0x2AAA 0x55 s

/-- `FLASH_ID_ENTER` (R376: 0x5555, 0x90). -/
def execFlashIdEnter (s : State) : Res State :=
  flashByteWrite 0x5555 0x90 s

/-- `FLASH_ID_EXIT` (R376: 0x5555, 0xF0). -/
def execFlashIdExit (s : State) : Res State :=
  flashByteWrite 0x5555 0xF0 s

/-- `FLASH_ERASE` (R376: 0x5555, 0x80). -/
def execFlashErase (s : State) : Res State :=
  flashByteWrite 0x5555 0x80 s

/-- `FLASH_ERASE_CHIP` (R376: 0x5555, 0x10). -/
def execFlashEraseChip (s : State) : Res State :=
  flashByteWrite 0x5555 0x10 s

/-- `FLASH_ERASE_SECTOR` (R376: any offset, 0x30). -/
def execFlashEraseSector (o : Half) (s : State) : Res State :=
  flashByteWrite o 0x30 s

/-- `FLASH_PROGRAM` (R376: 0x5555, 0xA0). -/
def execFlashProgram (s : State) : Res State :=
  flashByteWrite 0x5555 0xA0 s

/-- `FLASH_BANK` (R376: 0x5555, 0xB0). -/
def execFlashBank (s : State) : Res State :=
  flashByteWrite 0x5555 0xB0 s

/-- `FLASH_PROGRAM_DATA` (R377). -/
def execFlashProgramData (o : Half) (v : Byte) (s : State) : Res State :=
  flashByteWrite o v s

/-- `FLASH_BANK_DATA` (R377: offset 0x0000). -/
def execFlashBankData (v : Byte) (s : State) : Res State :=
  flashByteWrite 0 v s

/-- `FLASH_UNRECOGNIZED` (R387). -/
def execFlashUnrecognized (o : Half) (v : Byte) (s : State) : Res State :=
  flashByteWrite o v s

end Sys2Proof.Machine
end

