-- ==== Sys2Proof/Machine/Dispatch.lean ====
section
/-! DEFINITION. One arm for each operation of the opcode table. -/
namespace Sys2Proof.Machine

def exec (i : Instr) (s : State) : Host.Outcome State Fault Refusal :=
  match i with
  | .busRead8 m k a => Sys2Proof.Machine.execBusRead8 m k a s
  | .busRead16 m k a => Sys2Proof.Machine.execBusRead16 m k a s
  | .busRead32 m k a => Sys2Proof.Machine.execBusRead32 m k a s
  | .busWrite8 m a v => Sys2Proof.Machine.execBusWrite8 m a v s
  | .busWrite16 m a v => Sys2Proof.Machine.execBusWrite16 m a v s
  | .busWrite32 m a v => Sys2Proof.Machine.execBusWrite32 m a v s
  | .tick c => Sys2Proof.Machine.execTick c s
  | .triggerVblank => Sys2Proof.Machine.execTriggerVblank s
  | .triggerHblank => Sys2Proof.Machine.execTriggerHblank s
  | .triggerFifoa => Sys2Proof.Machine.execTriggerFifoa s
  | .triggerFifob => Sys2Proof.Machine.execTriggerFifob s
  | .loadGen1 f => Sys2Proof.Machine.execLoadGen1 f s
  | .serializeGen1 writable => Sys2Proof.Machine.execSerializeGen1 writable s
  | .loadGen2 f => Sys2Proof.Machine.execLoadGen2 f s
  | .serializeGen2 writable => Sys2Proof.Machine.execSerializeGen2 writable s
  | .gbDmaWrite v => Sys2Proof.Machine.execGbDmaWrite v s
  | .gbVbkWrite v => Sys2Proof.Machine.execGbVbkWrite v s
  | .gbBootWrite v => Sys2Proof.Machine.execGbBootWrite v s
  | .gbHdma1 v => Sys2Proof.Machine.execGbHdma1 v s
  | .gbHdma2 v => Sys2Proof.Machine.execGbHdma2 v s
  | .gbHdma3 v => Sys2Proof.Machine.execGbHdma3 v s
  | .gbHdma4 v => Sys2Proof.Machine.execGbHdma4 v s
  | .gbHdma5Gdma len => Sys2Proof.Machine.execGbHdma5Gdma len s
  | .gbHdma5Hdma len => Sys2Proof.Machine.execGbHdma5Hdma len s
  | .gbHdma5Cancel len => Sys2Proof.Machine.execGbHdma5Cancel len s
  | .gbHdma5Restart len => Sys2Proof.Machine.execGbHdma5Restart len s
  | .gbSvbkWrite v => Sys2Proof.Machine.execGbSvbkWrite v s
  | .gbDmaRead => Sys2Proof.Machine.execGbDmaRead s
  | .gbVbkRead => Sys2Proof.Machine.execGbVbkRead s
  | .gbBootRead => Sys2Proof.Machine.execGbBootRead s
  | .gbHdma1Read => Sys2Proof.Machine.execGbHdma1Read s
  | .gbHdma2Read => Sys2Proof.Machine.execGbHdma2Read s
  | .gbHdma3Read => Sys2Proof.Machine.execGbHdma3Read s
  | .gbHdma4Read => Sys2Proof.Machine.execGbHdma4Read s
  | .gbHdma5Read => Sys2Proof.Machine.execGbHdma5Read s
  | .gbSvbkRead => Sys2Proof.Machine.execGbSvbkRead s
  | .gbIoForwardRead a => Sys2Proof.Machine.execGbIoForwardRead a s
  | .aRamg a v => Sys2Proof.Machine.execARamg a v s
  | .aRomb0 a v => Sys2Proof.Machine.execARomb0 a v s
  | .aRamb a v => Sys2Proof.Machine.execARamb a v s
  | .aMode a v => Sys2Proof.Machine.execAMode a v s
  | .bRamg hi lo v => Sys2Proof.Machine.execBRamg hi lo v s
  | .bRomb hi lo v => Sys2Proof.Machine.execBRomb hi lo v s
  | .bIgnored a v => Sys2Proof.Machine.execBIgnored a v s
  | .cRamg a v => Sys2Proof.Machine.execCRamg a v s
  | .cRomb a v => Sys2Proof.Machine.execCRomb a v s
  | .cRamb a v => Sys2Proof.Machine.execCRamb a v s
  | .cLatch a v => Sys2Proof.Machine.execCLatch a v s
  | .dRamg a v => Sys2Proof.Machine.execDRamg a v s
  | .dRomb0 a v => Sys2Proof.Machine.execDRomb0 a v s
  | .dRomb1 a v => Sys2Proof.Machine.execDRomb1 a v s
  | .dRamb a v => Sys2Proof.Machine.execDRamb a v s
  | .dIgnored a v => Sys2Proof.Machine.execDIgnored a v s
  | .noneIgnored a v => Sys2Proof.Machine.execNoneIgnored a v s
  | .cartRamWrite a v => Sys2Proof.Machine.execCartRamWrite a v s
  | .rtcWriteS a v => Sys2Proof.Machine.execRtcWriteS a v s
  | .rtcWriteM a v => Sys2Proof.Machine.execRtcWriteM a v s
  | .rtcWriteH a v => Sys2Proof.Machine.execRtcWriteH a v s
  | .rtcWriteDl a v => Sys2Proof.Machine.execRtcWriteDl a v s
  | .rtcWriteDh a v => Sys2Proof.Machine.execRtcWriteDh a v s
  | .romReadLow a => Sys2Proof.Machine.execRomReadLow a s
  | .romReadHigh a => Sys2Proof.Machine.execRomReadHigh a s
  | .aRomMap a => Sys2Proof.Machine.execARomMap a s
  | .bRomMap a => Sys2Proof.Machine.execBRomMap a s
  | .cRomMap a => Sys2Proof.Machine.execCRomMap a s
  | .dRomMap a => Sys2Proof.Machine.execDRomMap a s
  | .cartRamRead a => Sys2Proof.Machine.execCartRamRead a s
  | .aRamMap a => Sys2Proof.Machine.execARamMap a s
  | .bRamMap a => Sys2Proof.Machine.execBRamMap a s
  | .cRamMap a => Sys2Proof.Machine.execCRamMap a s
  | .rtcRead a => Sys2Proof.Machine.execRtcRead a s
  | .gbaDma0Sad w v => Sys2Proof.Machine.execGbaDma0Sad w v s
  | .gbaDma0Dad w v => Sys2Proof.Machine.execGbaDma0Dad w v s
  | .gbaDma0CntL w v => Sys2Proof.Machine.execGbaDma0CntL w v s
  | .gbaDma0CntH w v => Sys2Proof.Machine.execGbaDma0CntH w v s
  | .gbaDma0Enable ctl => Sys2Proof.Machine.execGbaDma0Enable ctl s
  | .gbaDma0Disable ctl => Sys2Proof.Machine.execGbaDma0Disable ctl s
  | .gbaDma0Read off w => Sys2Proof.Machine.execGbaDma0Read off w s
  | .gbaDma1Sad w v => Sys2Proof.Machine.execGbaDma1Sad w v s
  | .gbaDma1Dad w v => Sys2Proof.Machine.execGbaDma1Dad w v s
  | .gbaDma1CntL w v => Sys2Proof.Machine.execGbaDma1CntL w v s
  | .gbaDma1CntH w v => Sys2Proof.Machine.execGbaDma1CntH w v s
  | .gbaDma1Enable ctl => Sys2Proof.Machine.execGbaDma1Enable ctl s
  | .gbaDma1Disable ctl => Sys2Proof.Machine.execGbaDma1Disable ctl s
  | .gbaDma1Read off w => Sys2Proof.Machine.execGbaDma1Read off w s
  | .gbaDma2Sad w v => Sys2Proof.Machine.execGbaDma2Sad w v s
  | .gbaDma2Dad w v => Sys2Proof.Machine.execGbaDma2Dad w v s
  | .gbaDma2CntL w v => Sys2Proof.Machine.execGbaDma2CntL w v s
  | .gbaDma2CntH w v => Sys2Proof.Machine.execGbaDma2CntH w v s
  | .gbaDma2Enable ctl => Sys2Proof.Machine.execGbaDma2Enable ctl s
  | .gbaDma2Disable ctl => Sys2Proof.Machine.execGbaDma2Disable ctl s
  | .gbaDma2Read off w => Sys2Proof.Machine.execGbaDma2Read off w s
  | .gbaDma3Sad w v => Sys2Proof.Machine.execGbaDma3Sad w v s
  | .gbaDma3Dad w v => Sys2Proof.Machine.execGbaDma3Dad w v s
  | .gbaDma3CntL w v => Sys2Proof.Machine.execGbaDma3CntL w v s
  | .gbaDma3CntH w v => Sys2Proof.Machine.execGbaDma3CntH w v s
  | .gbaDma3Enable ctl => Sys2Proof.Machine.execGbaDma3Enable ctl s
  | .gbaDma3Disable ctl => Sys2Proof.Machine.execGbaDma3Disable ctl s
  | .gbaDma3Read off w => Sys2Proof.Machine.execGbaDma3Read off w s
  | .batteryRamRead a w => Sys2Proof.Machine.execBatteryRamRead a w s
  | .batteryRamWrite a w v => Sys2Proof.Machine.execBatteryRamWrite a w v s
  | .storageSniff a w v => Sys2Proof.Machine.execStorageSniff a w v s
  | .eepromBitWrite k a d => Sys2Proof.Machine.execEepromBitWrite k a d s
  | .eepromDrainRead m a w => Sys2Proof.Machine.execEepromDrainRead m a w s
  | .eepromCpuWrite a w v => Sys2Proof.Machine.execEepromCpuWrite a w v s
  | .eepromSniff k a d => Sys2Proof.Machine.execEepromSniff k a d s
  | .flashRead a w => Sys2Proof.Machine.execFlashRead a w s
  | .flashIdManuf hi w => Sys2Proof.Machine.execFlashIdManuf hi w s
  | .flashIdDevice hi w => Sys2Proof.Machine.execFlashIdDevice hi w s
  | .flashUnlock1 => Sys2Proof.Machine.execFlashUnlock1 s
  | .flashUnlock2 => Sys2Proof.Machine.execFlashUnlock2 s
  | .flashIdEnter => Sys2Proof.Machine.execFlashIdEnter s
  | .flashIdExit => Sys2Proof.Machine.execFlashIdExit s
  | .flashErase => Sys2Proof.Machine.execFlashErase s
  | .flashEraseChip => Sys2Proof.Machine.execFlashEraseChip s
  | .flashEraseSector o => Sys2Proof.Machine.execFlashEraseSector o s
  | .flashProgram => Sys2Proof.Machine.execFlashProgram s
  | .flashBank => Sys2Proof.Machine.execFlashBank s
  | .flashProgramData o v => Sys2Proof.Machine.execFlashProgramData o v s
  | .flashBankData v => Sys2Proof.Machine.execFlashBankData v s
  | .flashUnrecognized o v => Sys2Proof.Machine.execFlashUnrecognized o v s
  | .eepromRead6 x stop => Sys2Proof.Machine.execEepromRead6 x stop s
  | .eepromRead14 x stop => Sys2Proof.Machine.execEepromRead14 x stop s
  | .eepromWrite6 x d stop => Sys2Proof.Machine.execEepromWrite6 x d stop s
  | .eepromWrite14 x d stop => Sys2Proof.Machine.execEepromWrite14 x d stop s

end Sys2Proof.Machine
end

