-- ==== Sys2Proof/Machine/Fetch.lean ====
section
/-! DEFINITION. How a call comes to run: the next call of the caller's sequence is taken, decoded and made
(00_scope.md R5, 30_encoding.md R170, R171). -/
namespace Sys2Proof.Machine

/-- What a frame that is no operation of the table ends in: a width outside 1, 2, 4 as R220 says, in the
order of R604; a stream that matches no pattern is run, and the device discards it (R333, R345, log 7);
anything else is no call, and the block accepts the calls of R170 and no other. -/
def notDecoded (e : DecodeError) (s : State) : Res State :=
  match e with
  | .badWidth cpu =>
    if cpu = true ∧ cpuStalled s = true then .fault .protocolViolation
    else
      match s.cfg.gen with
      | .gen1 => .refused .widthGen1
      | .gen2 => .refused .width
  | .badStream l => bindR (callStream l s) fun t => .next (afterCall t)
  | e => .refused (.notACall e)

/-- A call made: its frame decoded and run (R171). -/
def runFrame (f : Frame) (s : State) : Res State :=
  match decode f with
  | .ok i => bindR (exec i s) fun t => .next (afterCall t)
  | .error e => notDecoded e s

/-- The state in which a call is made: it is off the list, and its host inputs are the current ones
(R15). -/
def takeCall (p : Pending) (rest : List Pending) (s : State) : State :=
  { s with pending := rest, host := p.host }

/-- Why no call can be made: no block was built (R609), or the wall clock went back (R15, log 8). -/
def callRefusal (p : Pending) (s : State) : Option Refusal :=
  match constructionRefusal s.cfg with
  | some w => some (.construction w)
  | none => if p.host.now < s.host.now then some .clockBackward else none

/-- The next call of the sequence. -/
def runCall (p : Pending) (rest : List Pending) (s : State) : Res State :=
  match callRefusal p s with
  | some r => .refused r
  | none => runFrame p.frame (takeCall p rest s)

/-- One step: the next call, where there is one; a caller that makes no call leaves the state as it is
(R5, log 10). -/
def stepState (s : State) : Res State :=
  match s.pending with
  | [] => .next s
  | p :: rest => runCall p rest s

/-- Whether a word of the table belongs to generation 2: the `gba_io` words, and the `flash_cmd` words
that are whole (log 4). -/
def wordIsGen2 (nbits w : Nat) : Bool := nbits == 32 || (nbits == 24 && isFlashWord w)

/-- The parameters under which a word of the table runs: its generation selected (log 11). -/
def fetchConfig (nbits w : Nat) (c : Config) : Config :=
  if wordIsGen2 nbits w then { c with gen := .gen2, cgb := false } else { c with gen := .gen1 }

/-- The state with a word of the table as its next call (log 11). -/
def placeWord (nbits w : Nat) (s : State) : State :=
  { s with
    cfg := fetchConfig nbits w s.cfg,
    pending := { host := s.host, frame := tableFrame nbits w } :: s.pending }

end Sys2Proof.Machine
end

