-- ==== Sys2Proof/Machine/Step.lean ====
section
/-! DEFINITION. The step, and how a word of the opcode table is made the next to run. -/
namespace Sys2Proof.Machine

/-- One step of the block: one call of the caller's sequence (00_scope.md R3, R5). -/
def step (s : State) : Host.Outcome State Fault Refusal := stepState s

/-- `s` with the operation of the table's word `w` as its next call (log 11). -/
def State.withFetchWord (s : State) (nbits w : Nat) : State := placeWord nbits w s

end Sys2Proof.Machine
end

