-- ==== Sys2Proof/Safety.lean ====
section
/-! DEFINITION. What a safe run is, and the invariants a step keeps, each from a rule of the spec. -/
namespace Sys2Proof.Safety

open Sys2Proof.Machine

/-- A step that ends in no fault (60_exceptions.md R602). -/
def NoFault (s : State) : Prop := ∀ f, step s ≠ .fault f

/-! ### Canonical memory -/

/-- Every array is in its canonical form (log 3). -/
def MemoryOk (s : State) : Prop := Memory.wf s = true

/-- The cartridge RAM has the size its family and its parameter give it (10_state.md R42). -/
def ramSized (c : Cart) (n : Option Nvs1) : Prop :=
  if c.family = .b then ∃ r, n = some r ∧ r.bytes.size = 512
  else if c.ramSize = 0 then n = none
  else ∃ r, n = some r ∧ r.bytes.size = c.ramSize

/-- Every memory has the size the parameters give it (10_state.md R33 to R36, R42, R44), and a machine that
is no colour one has the video-RAM bank 0 selected (R33, 41_bus.md R231). -/
def SizesOk (s : State) : Prop :=
  s.g1.vram.size = (if s.cfg.cgb then 0x4000 else 0x2000)
    ∧ s.g1.wram.size = (if s.cfg.cgb then 0x8000 else 0x2000)
    ∧ s.g1.oam.size = 160 ∧ s.g1.hram.size = 127 ∧ ramSized s.cfg.cart s.g1.nvs1
    ∧ s.g2.ewram.size = 0x40000 ∧ s.g2.iwram.size = 0x8000 ∧ s.g2.pal.size = 0x400
    ∧ s.g2.vram2.size = 0x18000 ∧ s.g2.oam2.size = 0x400
    ∧ (s.cfg.cgb = false → s.g1.vbk = 0)

/-! ### Bank controller (42_bank_controllers.md R264, R266) -/

/-- The bank registers hold what the family's registers can hold, and the rumble output is the rumble
bit (10_state.md R48). -/
def BankOk (s : State) : Prop :=
  (s.cfg.cart.family = .a → 1 ≤ s.g1.bank.romBank ∧ s.g1.bank.romBank ≤ 31 ∧ s.g1.bank.ramBank ≤ 3)
    ∧ (s.cfg.cart.family = .b → 1 ≤ s.g1.bank.romBank ∧ s.g1.bank.romBank ≤ 15)
    ∧ (s.cfg.cart.family = .c → 1 ≤ s.g1.bank.romBank ∧ s.g1.bank.romBank ≤ 127)
    ∧ (s.cfg.cart.family = .d → s.g1.bank.ramBank ≤ 15)
    ∧ (s.g1.rumble = true ↔ s.g1.bank.rumble = 1)

/-! ### Clock (45_rtc.md R412, R414) -/

/-- The elapsed time is not negative, the clock is not halted in the future, and each latched unit is
below its count. -/
def RtcOk (s : State) : Prop :=
  0 ≤ elapsed s.g1.rtc (nowOf s)
    ∧ (s.g1.rtc.halted = true → s.g1.rtc.haltedInstant ≤ nowOf s)
    ∧ s.g1.rtc.latched.s < 60 ∧ s.g1.rtc.latched.m < 60 ∧ s.g1.rtc.latched.h < 24
    ∧ s.g1.rtc.latched.d < 512

/-! ### DMA of generation 1 (46_dma_gen1.md R456, R472) -/

/-- The bus is blocked exactly while the object-memory DMA is Active, and the counts of a transfer under
way are in range. -/
def Dma1Ok (s : State) : Prop :=
  s.g1.blocked
      = (if s.g1.oamDma.state = .active then (busOf s.cfg s.g1.oamDma.src).toBlocked else .none)
    ∧ (s.g1.oamDma.state ≠ .inactive → s.g1.oamDma.index < 160)
    ∧ (s.g1.vdma.state ≠ .inactive → 1 ≤ s.g1.vdma.blocks ∧ s.g1.vdma.blocks ≤ 128)

/-! ### DMA of generation 2 (10_state.md R51, 47_dma_gen2.md R513) -/

/-- A register cell with the masks of R51, no bit set outside its write mask. -/
def cellOk (r : Reg16) (readMask writeMask : Half) : Prop :=
  r.readMask = readMask ∧ r.writeMask = writeMask ∧ r.value &&& ~~~writeMask = 0

/-- The write mask of `sad_h` (R51). -/
def sadHMask : Chan → Half
  | .c0 => 0x07FF
  | _ => 0x0FFF

/-- The write mask of `dad_h` (R51). -/
def dadHMask : Chan → Half
  | .c3 => 0x0FFF
  | _ => 0x07FF

/-- The write mask of `cnt_l` (R51). -/
def cntLMask : Chan → Half
  | .c3 => 0xFFFF
  | _ => 0x3FFF

/-- The masks of `cnt_h` (R51). -/
def cntHMask : Chan → Half
  | .c3 => 0xFFE0
  | _ => 0xF7E0

/-- The register cells of a channel as R51 gives them. -/
def cellsOk (k : Chan) (c : DmaChannel) : Prop :=
  cellOk c.sadL 0 0xFFFF ∧ cellOk c.sadH 0 (sadHMask k) ∧ cellOk c.dadL 0 0xFFFF
    ∧ cellOk c.dadH 0 (dadHMask k) ∧ cellOk c.cntL 0 (cntLMask k)
    ∧ cellOk c.cntH (cntHMask k) (cntHMask k)

/-- A channel under way has a unit left (R513). -/
def unitsOk (c : DmaChannel) : Prop := c.state ≠ .inactive → 1 ≤ c.remaining

/-- Every channel is as R51 and R513 say. -/
def Dma2Ok (s : State) : Prop := ∀ k, cellsOk k (chan s k) ∧ unitsOk (chan s k)

/-! ### Storage of generation 2 (44_storage_flash.md R371, R372, R385; 43 R327, R328, R341) -/

/-- A flash: its size, its identifier, its bank, and the invariant of R385. -/
def flashOk (cfg : Config) (f : Flash) : Prop :=
  (f.bytes.size = 0x10000 ∨ f.bytes.size = 0x20000)
    ∧ f.chipId = (if f.bytes.size = 0x20000 then cfg.flashId128 else cfg.flashId64)
    ∧ (f.bytes.size = 0x10000 → f.bank = 0)
    ∧ (f.state = .command → f.last = .program ∨ f.last = .bankSwitch)
    ∧ (f.last = .bankSwitch → f.bytes.size = 0x20000)

/-- An Eeprom: its size by its address length, and the ready flag down exactly while it is busy. -/
def eepromOk (e : Eeprom) : Prop :=
  e.bytes.size = (if e.addrBits = .six then 512 else 8192) ∧ (e.busy.isSome = true ↔ e.ready = false)

/-- The live variant is as its rules say. -/
def StorageOk (s : State) : Prop :=
  match s.g2.nvs2 with
  | .unresolved => True
  | .batteryRam m => m.size = 0x8000
  | .eeprom e => eepromOk e
  | .flash f => flashOk s.cfg f

/-- A block with an override is never Unresolved (48_persistence.md R562, R564, 43 R321). -/
def OverrideOk (s : State) : Prop := s.cfg.saveOverride ≠ none → s.g2.nvs2 ≠ .unresolved

/-! ### Together -/

/-- All the invariants. -/
def Inv (s : State) : Prop :=
  MemoryOk s ∧ SizesOk s ∧ BankOk s ∧ RtcOk s ∧ Dma1Ok s ∧ Dma2Ok s ∧ StorageOk s ∧ OverrideOk s

end Sys2Proof.Safety
end

