-- ==== Sys2Proof/Certificates/Slice0/Obligations.lean ====
section
/-! DEFINITION. The statements for the provers. Each docstring names the rules of spec/ a statement
formalises; the words a statement shares with others are under `Sys2Proof.Claims`. -/
namespace Sys2Proof.Claims

open Sys2Proof.Machine

/-! ### Calls the block lets through -/

/-- The stall of R49, in the spec's words. -/
def Stalled (s : State) : Prop :=
  (s.cfg.gen = .gen2 ∧ ∃ k, (chan s k).state = .active)
    ∨ (s.cfg.gen = .gen1 ∧ s.cfg.cgb = true ∧ s.g1.vdma.state = .active)

/-- A generation-1 CPU access to `a` that is made and reaches its location, on a block that can be built
(R609): the CPU is not stalled (R236) and the access is neither blocked nor gated (R120, R121, R123). -/
def Open1 (s : State) (a : Half) : Prop :=
  s.cfg.gen = .gen1 ∧ constructionRefusal s.cfg = none ∧ ¬ Stalled s ∧ heldBack s a = none

/-- A generation-1 access to `a` by a master that the machine has (R622) and that reaches its location: one
of the CPU as `Open1` says, one of a DMA engine always (R122). -/
def Open1By (s : State) (m : Master) (a : Half) : Prop :=
  s.cfg.gen = .gen1 ∧ constructionRefusal s.cfg = none
    ∧ ((m = .cpu ∧ Open1 s a) ∨ m = .oam ∨ (m = .vdma ∧ s.cfg.cgb = true))

/-- A generation-2 CPU access that is made, on a block that can be built (R236, R609). -/
def Open2 (s : State) : Prop :=
  s.cfg.gen = .gen2 ∧ constructionRefusal s.cfg = none ∧ ¬ Stalled s

/-- The state after a read that gave `v` and had no other effect. -/
def gave (v : Word) (s : State) : State := { s with result := .value v }

/-- A byte as the value of a read. -/
def byte (b : Byte) : Word := b.setWidth 32

/-- The `BUS_READ` row of a width. -/
def readRow (w : Width) (m : Master) (k : AccessKind) (a : Word) : Instr :=
  match w with
  | .b1 => .busRead8 m k a
  | .b2 => .busRead16 m k a
  | .b4 => .busRead32 m k a

/-- The `BUS_WRITE` row of a width; the value is cut to the width. -/
def writeRow (w : Width) (m : Master) (a : Word) (v : Word) : Instr :=
  match w with
  | .b1 => .busWrite8 m a (v.setWidth 8)
  | .b2 => .busWrite16 m a (v.setWidth 16)
  | .b4 => .busWrite32 m a v

/-- Whether an operation is a `read` or `write` of the CPU. -/
def cpuAccess : Instr → Bool
  | .busRead8 m _ _ => m == .cpu
  | .busRead16 m _ _ => m == .cpu
  | .busRead32 m _ _ => m == .cpu
  | .busWrite8 m _ _ => m == .cpu
  | .busWrite16 m _ _ => m == .cpu
  | .busWrite32 m _ _ => m == .cpu
  | .tick _ => false
  | .triggerVblank => false
  | .triggerHblank => false
  | .triggerFifoa => false
  | .triggerFifob => false
  | .loadGen1 _ => false
  | .serializeGen1 _ => false
  | .loadGen2 _ => false
  | .serializeGen2 _ => false
  | .eepromBitWrite _ _ _ => false
  | .eepromDrainRead m _ _ => m == .cpu
  | .eepromSniff _ _ _ => false
  | .eepromRead6 _ _ => false
  | .eepromRead14 _ _ => false
  | .eepromWrite6 _ _ _ => false
  | .eepromWrite14 _ _ _ => false
  | _ => true

/-- The interrupt requests among what was sent out, oldest first (R610). -/
def requests (s : State) : List OutEvent :=
  s.outs.filter fun e =>
    match e with
    | .interrupt _ => true
    | _ => false

/-! ### Construction -/

/-- A power of two. -/
def PowerOfTwo (n : Nat) : Prop := ∃ k : Nat, n = 2 ^ k

/-- The legal metadata of R262, and no device the source does not name (R609). That Family D with rumble
may have 0x10000 bytes of RAM is log 26. -/
def LegalCart (c : Cart) : Prop :=
  c.otherDevice = false ∧ PowerOfTwo c.romBankCount ∧ 2 ≤ c.romBankCount
    ∧ (c.hasRtc = true → c.family = .c) ∧ (c.hasRumble = true → c.family = .d)
    ∧ match c.family with
      | .romOnly => c.romBankCount = 2 ∧ (c.ramSize = 0 ∨ c.ramSize = 0x2000)
      | .a => c.romBankCount ≤ 128
          ∧ (c.ramSize = 0 ∨ c.ramSize = 0x800 ∨ c.ramSize = 0x2000 ∨ c.ramSize = 0x8000)
      | .b => c.romBankCount ≤ 16
      | .c => c.romBankCount ≤ 128
          ∧ (c.ramSize = 0 ∨ c.ramSize = 0x800 ∨ c.ramSize = 0x2000 ∨ c.ramSize = 0x8000)
      | .d => c.romBankCount ≤ 512
          ∧ (c.ramSize = 0 ∨ c.ramSize = 0x800 ∨ c.ramSize = 0x2000 ∨ c.ramSize = 0x8000
            ∨ (c.ramSize = 0x10000 ∧ c.hasRumble = true)
            ∨ (c.ramSize = 0x20000 ∧ c.hasRumble = false))

/-- The legal timing parameters of R609: at least 1, but for the two start delays. -/
def LegalTiming (t : Timing) : Prop :=
  1 ≤ t.eepromWrite ∧ 1 ≤ t.flashProgram ∧ 1 ≤ t.flashEraseSector ∧ 1 ≤ t.flashEraseChip
    ∧ 1 ≤ t.oamUnit ∧ 1 ≤ t.vdmaBlock ∧ 1 ≤ t.gbaUnit

/-! ### The whole machine -/

/-- Nothing that a cycle would advance: no DMA under way and no storage operation pending. -/
def Idle (s : State) : Prop :=
  match s.cfg.gen with
  | .gen1 => s.g1.oamDma.state = .inactive ∧ (s.cfg.cgb = true → s.g1.vdma.state ≠ .active)
  | .gen2 => (∀ k, (chan s k).state = .inactive ∨ (chan s k).state = .paused)
      ∧ storageBusy s.g2.nvs2 = false

/-- The same live variant, of the same size, with the identifier and the known address length kept
(R321). -/
def SameVariant (n m : Nvs2) : Prop :=
  match n with
  | .unresolved => False
  | .batteryRam x => ∃ y, m = .batteryRam y ∧ y.size = x.size
  | .eeprom e =>
    ∃ d, m = .eeprom d ∧ (e.addrBits ≠ .unknown → d.addrBits = e.addrBits ∧ d.bytes.size = e.bytes.size)
  | .flash f => ∃ g, m = .flash g ∧ g.bytes.size = f.bytes.size ∧ g.chipId = f.chipId

/-- Object memory while the object-memory DMA is Active (R121). -/
def OamBusy (s : State) (a : Half) : Prop :=
  s.g1.oamDma.state = .active ∧ 0xFE00 ≤ a ∧ a ≤ 0xFEFF

/-- What the screen's mode gates (R123). -/
def Gated (s : State) (a : Half) : Prop :=
  s.host.ppu.lcdOn = true
    ∧ ((s.host.ppu.mode = .mode3
          ∧ ((0x8000 ≤ a ∧ a ≤ 0x9FFF) ∨ (s.cfg.cgb = true ∧ (a = 0xFF69 ∨ a = 0xFF6B))))
      ∨ ((s.host.ppu.mode = .mode2 ∨ s.host.ppu.mode = .mode3) ∧ 0xFE00 ≤ a ∧ a ≤ 0xFEFF))

/-! ### Generation 1 -/

/-- The generation-1 state replaced. -/
def with1 (s : State) (g : Gen1) : State := { s with g1 := g }

/-- The boot ROM catches a read of `a` (R101, R221). -/
def Overlaid (s : State) (a : Nat) : Prop :=
  s.g1.bootEnabled = true ∧ ∃ m, s.cfg.boot = some m ∧ a < m.size ∧ ¬ (0x100 ≤ a ∧ a ≤ 0x1FF)

/-- `Unit(u)` of R412 for seconds, minutes, hours and days, of an elapsed time. -/
def unit (e m c : Int) : Int := e / m % c

/-- `Elapsed()` of the clock at the current instant (R411). -/
def elapsedOf (s : State) : Int :=
  (if s.g1.rtc.halted then s.g1.rtc.haltedInstant else s.host.now) - s.g1.rtc.reference

/-- `S.rtc.reference_instant` after `Normalize()` (R415). -/
def normalizedReference (s : State) : Int :=
  s.g1.rtc.reference
    + (if 512 ≤ elapsedOf s / 86400 then 86400 * 512 * (elapsedOf s / 86400 / 512) else 0)

/-- The RTC register `sel` is what the RAM window shows (R281, R286, R287). -/
def RtcSelected (s : State) (sel : Byte) : Prop :=
  s.cfg.cart.family = .c ∧ s.cfg.cart.hasRtc = true ∧ s.g1.bank.ramEnabled = true
    ∧ s.g1.bank.ramBank = sel

/-- The ROM bank that `EffRom` selects (R267), for a legal bank count. -/
def effBank (c : Cart) (b : Nat) : Nat := b % c.romBankCount

/-- `map_rom(a)` of R270, R275, R279, R285 and R293. -/
def romOffsetOf (s : State) (a : Nat) : Nat :=
  match s.cfg.cart.family with
  | .romOnly => a
  | .a =>
    if a ≤ 0x3FFF then
      effBank s.cfg.cart (if s.g1.bank.mode = 1 then s.g1.bank.ramBank.toNat * 32 else 0) * 0x4000 + a
    else
      effBank s.cfg.cart (s.g1.bank.ramBank.toNat * 32 + s.g1.bank.romBank.toNat) * 0x4000
        + (a - 0x4000)
  | _ => if a ≤ 0x3FFF then a
         else effBank s.cfg.cart s.g1.bank.romBank.toNat * 0x4000 + (a - 0x4000)

/-- The bank of cartridge RAM that the window shows (R276, R287, R293). -/
def ramBankOf (s : State) : Nat :=
  match s.cfg.cart.family with
  | .a => if s.g1.bank.mode = 1 then s.g1.bank.ramBank.toNat else 0
  | _ => s.g1.bank.ramBank.toNat

/-- `map_ram(a)` where it answers a RAM offset (R270, R276, R280, R286, R287, R293). -/
def ramOffsetOf (s : State) (a : Nat) : Option Nat :=
  match s.cfg.cart.family with
  | .romOnly => if s.cfg.cart.ramSize = 0 then none else some (a - 0xA000)
  | .b => if s.g1.bank.ramEnabled then some ((a - 0xA000) % 512) else none
  | .c =>
    if s.g1.bank.ramEnabled = true ∧ s.cfg.cart.ramSize ≠ 0 ∧ s.g1.bank.ramBank ≤ 7 then
      some ((ramBankOf s * 0x2000 + (a - 0xA000)) % s.cfg.cart.ramSize)
    else none
  | _ =>
    if s.g1.bank.ramEnabled = true ∧ s.cfg.cart.ramSize ≠ 0 then
      some ((ramBankOf s * 0x2000 + (a - 0xA000)) % s.cfg.cart.ramSize)
    else none

/-- The byte of `S.nvs1` at an offset (R42). -/
def ramByte (s : State) (o : Nat) : Byte :=
  match s.g1.nvs1 with
  | none => 0xFF
  | some n => n.bytes.read o

/-- What the RAM window shows at an offset that `map_ram` answers (R276, R280), or 0xFF for no device. -/
def ramShown (s : State) (o : Option Nat) : Byte :=
  match o with
  | none => 0xFF
  | some o => if s.cfg.cart.family = .b then 0xF0 ||| (ramByte s o &&& 0x0F) else ramByte s o

/-- The clock register `sel` (R413, R417). -/
def clockByte (s : State) (sel : Byte) : Byte :=
  let l := s.g1.rtc.latched
  BitVec.ofNat 8
    (if sel = 0x08 then l.s else if sel = 0x09 then l.m else if sel = 0x0A then l.h
     else if sel = 0x0B then l.d % 256
     else l.d / 256 % 2 + (if s.g1.rtc.halted then 0x40 else 0) + (if s.g1.rtc.carry then 0x80 else 0))

/-- The memories of generation 1 that the bus reads and writes as plain bytes (R101). -/
inductive Ram1
  | vram | wram | oam | hram
  deriving DecidableEq, Repr

/-- The bytes of a memory. -/
def Ram1.image (r : Ram1) (g : Gen1) : Image :=
  match r with
  | .vram => g.vram
  | .wram => g.wram
  | .oam => g.oam
  | .hram => g.hram

/-- The generation-1 state with other bytes in a memory. -/
def Ram1.put (r : Ram1) (m : Image) (g : Gen1) : Gen1 :=
  match r with
  | .vram => { g with vram := m }
  | .wram => { g with wram := m }
  | .oam => { g with oam := m }
  | .hram => { g with hram := m }

/-- The bank of work RAM at 0xD000-0xDFFF (R34). -/
def workBank (s : State) : Nat := if s.cfg.cgb = true ∧ s.g1.svbk ≠ 0 then s.g1.svbk.toNat else 1

/-- The offset in work RAM of an address, through the echo too (R34, R101, R102). -/
def workOffset (s : State) (a : Nat) : Nat :=
  let b := if a ≤ 0xDFFF then a else a - 0x2000
  if b ≤ 0xCFFF then b - 0xC000 else workBank s * 0x1000 + (b - 0xD000)

/-- The memory that an address names and the offset in it (R33 to R36, R101, R102). -/
def ram1At (s : State) (a : Nat) : Option (Ram1 × Nat) :=
  if 0x8000 ≤ a ∧ a ≤ 0x9FFF then some (.vram, s.g1.vbk.toNat * 0x2000 + (a - 0x8000))
  else if 0xC000 ≤ a ∧ a ≤ 0xFDFF then some (.wram, workOffset s a)
  else if 0xFE00 ≤ a ∧ a ≤ 0xFE9F then some (.oam, a - 0xFE00)
  else if 0xFF80 ≤ a ∧ a ≤ 0xFFFE then some (.hram, a - 0xFF80)
  else none

/-- The source addresses the video-RAM DMA may not read (R469). -/
def Forbidden (a : Nat) : Prop := (0x8000 ≤ a ∧ a ≤ 0x9FFF) ∨ 0xE000 ≤ a

/-- The byte at a source address of the video-RAM DMA that R469 does not forbid: of the boot ROM or the
cartridge ROM, of the cartridge's RAM window, of work RAM (R101, R268, R305, R469). -/
def dmaSourceByte (s : State) (a : Nat) : Byte :=
  if a ≤ 0x7FFF then
    match s.cfg.boot with
    | none => s.cfg.rom.read (romOffsetOf s a)
    | some m =>
      if s.g1.bootEnabled = true ∧ a < m.size ∧ ¬ (0x100 ≤ a ∧ a ≤ 0x1FF) then m.read a
      else s.cfg.rom.read (romOffsetOf s a)
  else if a ≤ 0xBFFF then
    if s.cfg.cart.family = .c ∧ s.cfg.cart.hasRtc = true ∧ s.g1.bank.ramEnabled = true
        ∧ 0x08 ≤ s.g1.bank.ramBank ∧ s.g1.bank.ramBank ≤ 0x0C then clockByte s s.g1.bank.ramBank
    else ramShown s (ramOffsetOf s a)
  else s.g1.wram.read (workOffset s a)

/-! ### Generation 2 -/

/-- A generation-2 access by a master that is let through, on a block that can be built (R236, R609,
R622): by the CPU while it is not stalled, or by a DMA channel. -/
def Open2By (s : State) (m : Master) : Prop :=
  s.cfg.gen = .gen2 ∧ constructionRefusal s.cfg = none
    ∧ ((m = .cpu ∧ ¬ Stalled s) ∨ ∃ k, m = .chan k)

/-- The generation-2 state replaced. -/
def with2 (s : State) (g : Gen2) : State := { s with g2 := g }

/-- The state with another storage variant. -/
def withVariant (s : State) (n : Nvs2) : State := with2 s { s.g2 with nvs2 := n }

/-- The state with another channel `k`. -/
def withChan (s : State) (k : Chan) (c : DmaChannel) : State :=
  with2 s { s.g2 with dma := s.g2.dma.set k c }

/-- The memories of generation 2 that the bus reads and writes as plain bytes (R105). -/
inductive Ram2
  | ewram | iwram | pal | vram | oam
  deriving DecidableEq, Repr

/-- The address bits 31 to 24 of a memory (R105). -/
def Ram2.page : Ram2 → Nat
  | .ewram => 2
  | .iwram => 3
  | .pal => 5
  | .vram => 6
  | .oam => 7

/-- The offset in a memory that an address names (R105): each is mirrored, and the upper 32 KiB of
video RAM twice. -/
def Ram2.offset (r : Ram2) (a : Nat) : Nat :=
  match r with
  | .ewram => a % 0x40000
  | .iwram => a % 0x8000
  | .pal => a % 0x400
  | .vram => if a % 0x20000 < 0x18000 then a % 0x20000 else a % 0x20000 - 0x8000
  | .oam => a % 0x400

/-- The bytes of a memory. -/
def Ram2.image (r : Ram2) (g : Gen2) : Image :=
  match r with
  | .ewram => g.ewram
  | .iwram => g.iwram
  | .pal => g.pal
  | .vram => g.vram2
  | .oam => g.oam2

/-- The generation-2 state with other bytes in a memory. -/
def Ram2.put (r : Ram2) (m : Image) (g : Gen2) : Gen2 :=
  match r with
  | .ewram => { g with ewram := m }
  | .iwram => { g with iwram := m }
  | .pal => { g with pal := m }
  | .vram => { g with vram2 := m }
  | .oam => { g with oam2 := m }

/-- An address made a multiple of the width (R112). -/
def aligned (w : Width) (a : Nat) : Nat := a / w.bytes * w.bytes

/-- The unsigned value of `n` bytes from `o`, the lowest first (R19). -/
def leValue (m : Image) (o : Nat) : Nat → Nat
  | 0 => 0
  | n + 1 => leValue m o n + (m.read (o + n)).toNat * 256 ^ n

/-- Byte `i` of a value (R19). -/
def valueByte (v : Word) (i : Nat) : Byte := BitVec.ofNat 8 (v.toNat / 256 ^ i)

/-- `m'` is `m` with the bytes `f 0` to `f (n - 1)` stored from `o`; every other byte reads as before. -/
def StoredAt (m m' : Image) (o n : Nat) (f : Nat → Byte) : Prop :=
  (∀ i < n, m'.read (o + i) = f i) ∧ ∀ x, (∀ i < n, x ≠ o + i) → m'.read x = m.read x

/-- The addresses at which nothing answers (R105, R107, R116). -/
def Unmapped2 (a : Nat) : Prop :=
  (0x4000 ≤ a ∧ a < 0x02000000) ∨ (0x04000400 ≤ a ∧ a < 0x05000000) ∨ 0x10000000 ≤ a

/-- The lane of a word that an access of a width at an address takes (R117). -/
def laneValue (x : Word) (w : Width) (a : Nat) : Word :=
  BitVec.ofNat 32 (x.toNat / 256 ^ aligned w (a % 4) % 256 ^ w.bytes)

/-- The open-bus word of the default `OPEN_BUS_FN` (R116). -/
def prefetchWord (c : CpuCtx) : Word :=
  if c.thumb then BitVec.ofNat 32 (c.prefetch.toNat % 65536 * 65537) else c.prefetch

/-- Whether an address is in the EEPROM window (R106). -/
def InWindow (s : State) (a : Nat) : Prop :=
  if s.cfg.rom.size ≤ 0x01000000 then 0x0D000000 ≤ a ∧ a ≤ 0x0DFFFFFF
  else 0x0DFFFF00 ≤ a ∧ a ≤ 0x0DFFFFFF

/-- Whether a read of an address takes a bit from the Eeprom (R339). -/
def ReadsEeprom (s : State) (a : Nat) : Prop := InWindow s a ∧ ∃ e, s.g2.nvs2 = .eeprom e

/-- The value of the cartridge halfword at an even address (R118). The upper byte of the last halfword of
a ROM of odd length is a free value (log 16). -/
def romHalfword (s : State) (u : Nat) : Nat :=
  if u % 0x02000000 < s.cfg.rom.size then
    (s.cfg.rom.read (u % 0x02000000)).toNat
      + 256 * (if u % 0x02000000 + 1 < s.cfg.rom.size then s.cfg.rom.read (u % 0x02000000 + 1)
               else Config.romTail).toNat
  else u / 2 % 65536

/-- What a read of cartridge ROM returns (R113, R118). -/
def romValue (s : State) (w : Width) (a : Nat) : Word :=
  match w with
  | .b1 => BitVec.ofNat 32 (romHalfword s (a / 2 * 2) / 256 ^ (a % 2) % 256)
  | .b2 => BitVec.ofNat 32 (romHalfword s (a / 2 * 2))
  | .b4 => BitVec.ofNat 32 (romHalfword s (a / 4 * 4) + 65536 * romHalfword s (a / 4 * 4 + 2))

/-! ### Generation 2: DMA -/

/-- A field of `n` bits of a control register, from bit `i` up (R180). -/
def field (h : Half) (i n : Nat) : Nat := h.toNat / 2 ^ i % 2 ^ n

/-- The start address of the registers (R180), cut by `SrcMask` (R490). -/
def sourceOf (k : Chan) (c : DmaChannel) : Nat :=
  (c.sadH.value.toNat * 65536 + c.sadL.value.toNat) % (if k = .c0 then 0x8000000 else 0x10000000)

/-- The destination address of the registers (R180), cut by `DstMask` (R490). -/
def destOf (k : Chan) (c : DmaChannel) : Nat :=
  (c.dadH.value.toNat * 65536 + c.dadL.value.toNat) % (if k = .c3 then 0x10000000 else 0x8000000)

/-- The units an activation moves (R496), outside FIFO mode. -/
def unitsOf (k : Chan) (c : DmaChannel) : Nat :=
  if c.cntL.value = 0 then (if k = .c3 then 0x10000 else 0x4000) else c.cntL.value.toNat

/-- The unit width of a channel (R497). -/
def unitOf (c : DmaChannel) : Width :=
  if c.fifo = true ∨ field c.cntH.value 10 1 = 1 then .b4 else .b2

/-- An address moved by a unit of `n` bytes, within the `size` addresses of its mask (R498). -/
def movedBy (ctl n size a : Nat) : Nat :=
  (if ctl = 1 then a + size - n else if ctl = 2 then a else a + n) % size

/-- A channel after the unit it has just moved: its addresses adjusted, its count one less, its counter run
out (R498, R503). -/
def unitDone (k : Chan) (c : DmaChannel) : DmaChannel :=
  let n := (unitOf c).bytes
  { c with
    src := BitVec.ofNat 28 (movedBy (field c.cntH.value 7 2) n (if k = .c0 then 0x8000000 else 0x10000000)
      c.src.toNat),
    dst := if c.fifo = true then c.dst else
      BitVec.ofNat 28 (movedBy (field c.cntH.value 5 2) n (if k = .c3 then 0x10000000 else 0x8000000)
        c.dst.toNat),
    remaining := c.remaining - 1, counter := 0 }

/-- A channel that has moved its last unit (R510, R511): Paused with its count, and under DEST_CTL 3 its
destination, loaded again where it repeats; else Inactive with its enable bit clear. -/
def activationDone (k : Chan) (c : DmaChannel) : DmaChannel :=
  if field c.cntH.value 9 1 = 1 ∧ field c.cntH.value 12 2 ≠ 0 ∧ field c.cntH.value 15 1 = 1
      ∧ c.stop = false then
    { c with
      remaining := if c.fifo = true then 4 else unitsOf k c,
      dst := if field c.cntH.value 5 2 = 3 ∧ c.fifo = false then BitVec.ofNat 28 (destOf k c) else c.dst,
      state := .paused }
  else { c with cntH.value := c.cntH.value &&& 0x7FFF, state := .inactive, stop := false }

/-- Whether a channel's activation ends with its next unit: it is the last, or the channel is to stop
(R503, R508, R510). -/
def Ends (c : DmaChannel) : Prop := c.remaining = 1 ∨ c.stop = true

/-- A channel after its next unit (R502, R503, R508, R510). -/
def afterNextUnit (t : Timing) (k : Chan) (c : DmaChannel) : DmaChannel :=
  if c.remaining = 1 then activationDone k (unitDone k c)
  else if c.stop = true then { unitDone k c with state := .inactive, stop := false }
  else { unitDone k c with counter := t.gbaUnit }

/-- A channel that is not the one at work, after a cycle: a Starting one counts down and turns Active when
its count runs out, any other is held (R502, R504). -/
def waited (t : Timing) (c : DmaChannel) : DmaChannel :=
  if c.state = .starting then
    if c.counter = 1 then { c with state := .active, counter := t.gbaUnit }
    else { c with counter := c.counter - 1 }
  else c

/-- The channels after a cycle in which channel `k` became `c` (R502, R504). -/
def Worked (s : State) (k : Chan) (c : DmaChannel) (d : Channels) : Prop :=
  d.get k = c ∧ ∀ j, j ≠ k → d.get j = waited s.cfg.timing (chan s j)

/-- Channel `k` is the one at work in the next cycle: the first that is Active (R504), with no storage
operation in flight. -/
def AtWork (s : State) (k : Chan) : Prop :=
  s.cfg.gen = .gen2 ∧ constructionRefusal s.cfg = none ∧ storageBusy s.g2.nvs2 = false
    ∧ (chan s k).state = .active ∧ ∀ j : Chan, j.toNat < k.toNat → (chan s j).state ≠ .active

/-- The interrupt a channel requests with its next unit (R510). -/
def requestOf (k : Chan) (c : DmaChannel) : List OutEvent :=
  if c.remaining = 1 ∧ field c.cntH.value 14 1 = 1 then [.interrupt k] else []

/-- What a channel's next unit reads, where its source is valid and in the first work RAM (R503). -/
def unitValue (s : State) (c : DmaChannel) : Word :=
  BitVec.ofNat 32 (leValue s.g2.ewram (aligned (unitOf c) c.src.toNat % 0x40000) (unitOf c).bytes)

/-- What a write of two or four bytes sends to `io_ext`: each halfword under a full mask (R229, R225). -/
def ioWrites (w : Width) (a : Nat) (v : Word) : List OutEvent :=
  let first := OutEvent.ioWrite16 (BitVec.ofNat 32 (aligned w a)) (v.setWidth 16) 0xFFFF
  match w with
  | .b4 => [first, .ioWrite16 (BitVec.ofNat 32 (aligned w a + 2)) (v.extractLsb' 16 16) 0xFFFF]
  | _ => [first]

/-- A register value after a write of the data `d` under a byte mask, for the bits of its write mask (R202,
R203). -/
def merged (x writeMask d byteMask : Half) : Half := (x &&& ~~~byteMask) ||| (d &&& byteMask &&& writeMask)

/-- A channel after a write of the address or count cell `i`, in the order of their addresses (R51, R180,
R202). -/
def cellWritten (k : Chan) (c : DmaChannel) (i : Nat) (d byteMask : Half) : DmaChannel :=
  match i with
  | 0 => { c with sadL.value := merged c.sadL.value 0xFFFF d byteMask }
  | 1 => { c with sadH.value := merged c.sadH.value (Safety.sadHMask k) d byteMask }
  | 2 => { c with dadL.value := merged c.dadL.value 0xFFFF d byteMask }
  | 3 => { c with dadH.value := merged c.dadH.value (Safety.dadHMask k) d byteMask }
  | _ => { c with cntL.value := merged c.cntL.value (Safety.cntLMask k) d byteMask }

/-- The operations `rd`, one for each offset and width, read the registers of a channel: the control
register where they cover it, and free values elsewhere (R492). -/
def ReadsChannel (s : State) (c : DmaChannel) (rd : Fin 12 → Width → Instr) : Prop :=
  ∀ off : Fin 12,
    (off.val / 2 = 5 →
      exec (rd off .b2) s = .next (gave (c.cntH.value.setWidth 32) s)
      ∧ exec (rd off .b1) s
          = .next (gave (byte (c.cntH.value.extractLsb' (8 * (off.val % 2)) 8)) s))
    ∧ (off.val / 4 = 2 → ∃ d : Half,
      exec (rd off .b4) s = .next { gave (c.cntH.value ++ d) s with draws := s.draws + 1 })
    ∧ (off.val / 2 ≠ 5 →
      (∃ d : Half,
        exec (rd off .b2) s = .next { gave (d.setWidth 32) s with draws := s.draws + 1 })
      ∧ ∃ b : Byte, exec (rd off .b1) s = .next { gave (byte b) s with draws := s.draws + 1 })
    ∧ (off.val / 4 ≠ 2 → ∃ x : Word,
      exec (rd off .b4) s = .next { gave x s with draws := s.draws + 2 })

/-- The refusals of R499, for the control value `h` an enabling write would store. -/
def Refused499 (k : Chan) (c : DmaChannel) (h : Half) (r : Refusal) : Prop :=
  (field h 7 2 = 3 ∧ r = .dmaSrcCtl3)
    ∨ (k = .c3 ∧ field h 11 1 = 1 ∧ r = .dmaDrq)
    ∨ (field h 12 2 = 3 ∧ (k = .c0 ∨ k = .c3) ∧ r = .dmaSpecialTiming)
    ∨ (field h 12 2 = 3 ∧ (k = .c1 ∨ k = .c2)
        ∧ ¬ (destOf k c = 0x040000A0 ∨ destOf k c = 0x040000A4) ∧ r = .dmaFifoDest)

/-- A channel that starts (R494). -/
def started (t : Timing) (c : DmaChannel) : DmaChannel :=
  { c with state := if t.gbaStart = 0 then .active else .starting,
           counter := if t.gbaStart = 0 then t.gbaUnit else t.gbaStart }

/-- A channel with its registers latched and its transfer parameters set, before it starts or waits
(R494). -/
def latched (k : Chan) (c : DmaChannel) (h : Half) : DmaChannel :=
  { c with
    cntH.value := h,
    src := BitVec.ofNat 28 (sourceOf k c), dst := BitVec.ofNat 28 (destOf k c),
    fifo := decide (field h 12 2 = 3),
    remaining := if field h 12 2 = 3 then 4 else unitsOf k c,
    srcInvalid := decide (sourceOf k c < 0x02000000), stop := false, eepromWrote := false }

/-- The event a trigger row fires reaches a channel (R501). -/
def Fires (i : Instr) (c : DmaChannel) : Prop :=
  (field c.cntH.value 12 2 = 1 ∧ i = .triggerVblank) ∨ (field c.cntH.value 12 2 = 2 ∧ i = .triggerHblank)
    ∨ (c.fifo = true ∧ ((i = .triggerFifoa ∧ c.dst = 0x040000A0)
        ∨ (i = .triggerFifob ∧ c.dst = 0x040000A4)))

/-- No channel but `k` is under way, and no storage operation is. -/
def OnlyChannel (s : State) (k : Chan) : Prop :=
  (∀ j, j ≠ k → (chan s j).state = .inactive ∨ (chan s j).state = .paused)
    ∧ storageBusy s.g2.nvs2 = false

/-! ### Generation 2: storage -/

/-- A byte in every lane of a width (R114). -/
def inEveryLane (w : Width) (b : Byte) : Word :=
  BitVec.ofNat 32 (b.toNat * match w with | .b1 => 1 | .b2 => 0x101 | .b4 => 0x1010101)

/-- The byte a write of the storage window stores: lane `a mod n` of the value (R114). -/
def storedByte (w : Width) (a : Nat) (v : Word) : Byte := valueByte v (a % w.bytes)

/-- The rows that read the storage window at `0x0E000000 + a`. -/
def windowReads (a : BitVec 25) (w : Width) : List Instr :=
  [.batteryRamRead a w, .storageSniff a w none, .flashRead a w,
   readRow w .cpu .data (0x0E000000#32 + a.setWidth 32)]

/-- The rows that write the storage window at `0x0E000000 + a`. -/
def windowWrites (a : BitVec 25) (w : Width) (v : Word) : List Instr :=
  [.batteryRamWrite a w v, .storageSniff a w (some v),
   writeRow w .cpu (0x0E000000#32 + a.setWidth 32) v]

/-- The stream bits that a write of the EEPROM window gives: bit 0 of each halfword, of a byte in an odd
lane a 0 (R330, R331, R203). -/
def bitsWritten (w : Width) (a : Nat) (v : Word) : List Bool :=
  match w with
  | .b1 => [decide (a % 2 = 0) && v.getLsbD 0]
  | .b2 => [v.getLsbD 0]
  | .b4 => [v.getLsbD 0, v.getLsbD 16]

/-- The rows by which channel `k` writes the EEPROM window at `0x0D000000 + a`. -/
def windowFeeds (k : Chan) (a : BitVec 24) (w : Width) (v : Word) : List Instr :=
  writeRow w (.chan k) (0x0D#8 ++ a) v
    :: match w with
       | .b2 => [.eepromBitWrite k a (v.setWidth 16), .eepromSniff k a (v.setWidth 16)]
       | _ => []

/-- A stream that is none of R333's four lengths, or has not the start bit (R335). -/
def Malformed (l : List Bool) : Prop :=
  l.length ∉ [8, 9, 16, 17, 72, 73, 80, 81] ∨ l.head? ≠ some true

/-- A stream of a command's length, with the start bit, whose read/write bit is not the one of that length
(R181, R333). -/
def Unfit (l : List Bool) : Prop :=
  l.head? = some true
    ∧ (l.length ∈ [8, 9, 16, 17] ∧ l[1]? = some false ∨ l.length ∈ [72, 73, 80, 81] ∧ l[1]? = some true)

/-- One bit out of an Eeprom (R339): the first staged bit, or the ready flag. -/
def drained (e : Eeprom) : Nat × Eeprom :=
  match e.staged with
  | [] => (if e.ready then 1 else 0, e)
  | b :: r => (if b then 1 else 0, { e with staged := r })

/-- What a read of the EEPROM window gives, and the device after (R339, R340). -/
def drainedBy (w : Width) (a : Nat) (e : Eeprom) : Word × Eeprom :=
  match w with
  | .b1 => (if a % 2 = 0 then BitVec.ofNat 32 (drained e).1 else 0, (drained e).2)
  | .b2 => (BitVec.ofNat 32 (drained e).1, (drained e).2)
  | .b4 => (BitVec.ofNat 32 ((drained e).1 + 65536 * (drained (drained e).2).1), (drained (drained e).2).2)

/-- A flash and the commands its state takes (R374 to R377). -/
def Recognized (f : Flash) (o : Half) (v : Byte) : Prop :=
  match f.state with
  | .notStarted => o = 0x5555 ∧ v = 0xAA
  | .starting => o = 0x2AAA ∧ v = 0x55
  | .ready => (o = 0x5555 ∧ (v = 0x90 ∨ v = 0xF0 ∨ v = 0x80 ∨ v = 0xA0))
      ∨ (o = 0x5555 ∧ v = 0x10 ∧ f.last = .erase) ∨ (v = 0x30 ∧ f.last = .erase)
      ∨ (o = 0x5555 ∧ v = 0xB0 ∧ f.bytes.size = 0x20000)
  | .command => f.last = .program ∨ o = 0

/-! ### Save files -/

/-- The size of the RAM part of a generation-1 save file (R551). -/
def ramPart (s : State) : Nat := if s.cfg.cart.family = .b then 512 else s.cfg.cart.ramSize

/-- The generation-1 state with other cartridge RAM bytes. -/
def withRam1 (s : State) (m : Image) : State :=
  with1 s { s.g1 with nvs1 := s.g1.nvs1.map fun n => { n with bytes := m } }

/-- A clock that starts from zero now (R41, R559). -/
def FreshClock (s : State) (r : Rtc) : Prop :=
  r.reference = s.host.now ∧ r.haltedInstant = s.host.now ∧ r.halted = false ∧ r.carry = false
    ∧ r.latched = { s := 0, m := 0, h := 0, d := 0 }

/-- The unsigned value of `n` bytes of a file from `o`, the lowest first. -/
def fileField (l : List Byte) (o : Nat) : Nat → Nat
  | 0 => 0
  | n + 1 => fileField l o n + ((l[o + n]?).getD 0).toNat * 256 ^ n

/-- The instant that the eight bytes at `o` hold: their signed value, which is the model's choice (log 27). -/
def fileInstant (l : List Byte) (o : Nat) : Int :=
  if fileField l o 8 < 2 ^ 63 then fileField l o 8 else (fileField l o 8 : Int) - 2 ^ 64

/-- The fields of the trailer at `o` are in their ranges (R555). -/
def TrailerInRange (l : List Byte) (o : Nat) : Prop :=
  ∀ p, p = o ∨ p = o + 0x14 →
    fileField l p 4 ≤ 59 ∧ fileField l (p + 4) 4 ≤ 59 ∧ fileField l (p + 8) 4 ≤ 23
    ∧ fileField l (p + 12) 4 ≤ 255
    ∧ ∃ d h c : Nat, d ≤ 1 ∧ h ≤ 1 ∧ c ≤ 1 ∧ fileField l (p + 16) 4 = d + 0x40 * h + 0x80 * c

/-- The day count of the days and flags fields (R556). -/
def trailerDays (l : List Byte) (p : Nat) : Nat :=
  fileField l (p + 12) 4 + 256 * (fileField l (p + 16) 4 % 2)

/-- The flags byte of a day count and the halt and carry flags (R554). -/
def flagsByte (d : Nat) (halted carry : Bool) : Nat :=
  d / 256 % 2 + (if halted then 0x40 else 0) + (if carry then 0x80 else 0)

/-- The size of a variant's save file (R561, R562). -/
def fileSize : SaveVariant → Nat
  | .batteryRam => 0x8000
  | .eeprom6 => 0x200
  | .eeprom14 => 0x2000
  | .flash64 => 0x10000
  | .flash128 => 0x20000

/-- The storage device of a variant, just created with the bytes `m` (R370, R371, R561, R563). -/
def device (c : Config) (v : SaveVariant) (m : Image) : Nvs2 :=
  let eeprom := fun b => Nvs2.eeprom
    { bytes := m, addrBits := b, pending := [], staged := [], ready := true, busy := none }
  let flash := fun i => Nvs2.flash
    { bytes := m, state := .notStarted, last := .none, chipId := i, bank := 0, idMode := false,
      busy := none }
  match v with
  | .batteryRam => .batteryRam m
  | .eeprom6 => eeprom .six
  | .eeprom14 => eeprom .fourteen
  | .flash64 => flash c.flashId64
  | .flash128 => flash c.flashId128

/-- A storage device as `load` leaves it, holding the bytes that the device `n` holds (R567). -/
def Holds (c : Config) (n m : Nvs2) : Prop :=
  match n with
  | .unresolved => False
  | .batteryRam x => ∃ y, m = .batteryRam y ∧ y.toList = x.toList
  | .eeprom e => ∃ y, y.toList = e.bytes.toList
      ∧ m = device c (if e.addrBits = .six then .eeprom6 else .eeprom14) y
  | .flash f => ∃ y, y.toList = f.bytes.toList
      ∧ m = device c (if f.bytes.size = 0x20000 then .flash128 else .flash64) y

end Sys2Proof.Claims

open Sys2Proof Sys2Proof.Machine Sys2Proof.Safety Sys2Proof.Claims

/-! ### The step and the decoder -/

/-- 00_scope.md R5, 30_encoding.md R170: a step makes the caller's next call. Where its frame decodes
to `i`, the step is `exec i` in the state that has the call off its list and the call's host inputs as
the current ones (R15), and after it `load` may no longer be called (R550). Without a call the state
stays. -/
def Obligations.StepRunsDecodedCall : Prop :=
  (∀ (s : State) (p : Pending) (rest : List Pending) (i : Instr),
    s.pending = p :: rest → constructionRefusal s.cfg = none → s.host.now ≤ p.host.now →
    decode p.frame = .ok i →
    step s
      = match exec i { s with pending := rest, host := p.host } with
        | .next t => .next { t with loadable := false }
        | .fault f => .fault f
        | .refused r => .refused r)
  ∧ ∀ s : State, s.pending = [] → step s = .next s

/-- Log 11: a word of the opcode table placed by `withFetchWord` is what the very next step runs. -/
def Obligations.PlacedWordRunsNext : Prop :=
  ∀ (s : State) (nbits w : Nat) (i : Instr),
    decodeTableWord nbits w = some i → constructionRefusal (fetchConfig nbits w s.cfg) = none →
    step (s.withFetchWord nbits w)
      = match exec i { s with cfg := fetchConfig nbits w s.cfg } with
        | .next t => .next { t with loadable := false }
        | .fault f => .fault f
        | .refused r => .refused r

/-- 30_encoding.md R176 to R182: words written out from the encodings, one for each format and family,
decode to the operation they stand for. The bytes beside the table's words are the model's choice: the
selector, the width and the master's code (log 4), and the whole of the tick's frame, its code 2 and its
64-bit count (logs 4, 5); the spec gives none. -/
def Obligations.SpecWordsDecode : Prop :=
  decode (gbWriteFrame 0xFF46 0xC1 0) = .ok (.gbDmaWrite 0xC1)
  ∧ decode (gbWriteFrame 0xFF55 0x83 0) = .ok (.gbHdma5Hdma 3)
  ∧ decode (gbReadFrame 0xFF44 0) = .ok (.gbIoForwardRead 0x44)
  ∧ decode (gbWriteFrame 0x2100 0x05 0) = .ok (.aRomb0 0x100 5)
  ∧ decode (gbWriteFrame 0x2100 0x05 1) = .ok (.bRomb 0x10 0x00 5)
  ∧ decode (gbWriteFrame 0x6000 0x01 2) = .ok (.cLatch 0 1)
  ∧ decode (gbWriteFrame 0x3000 0x01 3) = .ok (.dRomb1 0 1)
  ∧ decode (gbReadFrame 0x4000 0) = .ok (.romReadHigh 0)
  ∧ decode (gbWriteFrame 0xA123 0x77 0) = .ok (.cartRamWrite 0x123 0x77)
  ∧ decode (gbaIoFrame 0x040000D4 0 .b4 0 0x02000000) = .ok (.gbaDma3Sad .b4 0x02000000)
  ∧ decode (gbaIoFrame 0x040000C6 2 .b2 0 0xB640) = .ok (.gbaDma1Enable 0x3640)
  ∧ decode (gbaIoFrame 0x0D000000 1 .b2 7 0) = .ok (.eepromDrainRead (.chan .c3) 0 .b2)
  ∧ decode (flashFrame 0x5555 0xAA 0) = .ok .flashUnlock1
  ∧ decode (flashFrame 0x4456 0x30 0) = .ok (.flashEraseSector 0x4456)
  ∧ decode (streamFrame [true, true, false, false, false, false, true, true, false])
      = .ok (.eepromRead6 3 (some false))
  ∧ decode (callFrame [2, 0xE8, 0x03, 0, 0, 0, 0, 0, 0]) = .ok (.tick 1000)

/-- 30_encoding.md R170 to R187: decoding the encoding of a well-formed operation gives it back, every
operand at every value; and what the decoder answers is well-formed (R229). -/
def Obligations.DecodeAndEncodeAgree : Prop :=
  (∀ i : Instr, i.wellFormed = true → decode (encode i) = .ok i)
  ∧ ∀ (f : Frame) (i : Instr), decode f = .ok i → i.wellFormed = true

/-! ### Invariants -/

/-- Log 3: every step keeps every array in its canonical form. -/
def Obligations.StepKeepsMemoryCanonical : Prop :=
  ∀ s t : State, MemoryOk s → step s = .next t → MemoryOk t

/-- 42_bank_controllers.md R264, R266: every step keeps the bank registers in the range of their
family, so `rom_bank` is at least 1 for families A, B and C, and the rumble output equal to the rumble
bit (R297). -/
def Obligations.StepKeepsBankRanges : Prop :=
  ∀ s t : State, BankOk s → step s = .next t → BankOk t

/-- 45_rtc.md R414: every step keeps the elapsed time of the clock from being negative, and the latched
units below their counts (R410). -/
def Obligations.StepKeepsClockSane : Prop :=
  ∀ s t : State, RtcOk s → step s = .next t → RtcOk t

/-- 46_dma_gen1.md R456, R472: every step keeps the bus blocked exactly while the object-memory DMA is
Active, and the counts of both generation-1 engines in range. -/
def Obligations.StepKeepsGen1DmaCounts : Prop :=
  ∀ s t : State, Dma1Ok s → step s = .next t → Dma1Ok t

/-- 10_state.md R51, 47_dma_gen2.md R513: every step keeps the masks of the DMA cells, no stored bit
outside them, and a unit left in every channel that is not Inactive. -/
def Obligations.StepKeepsGen2DmaCells : Prop :=
  ∀ s t : State, Dma2Ok s → step s = .next t → Dma2Ok t

/-- 44_storage_flash.md R371, R385 and 43_storage_battery_eeprom.md R327, R341: every step keeps the
live storage variant as its rules say, and a block with an override from being Unresolved (R321,
48_persistence.md R562). -/
def Obligations.StepKeepsStorageVariant : Prop :=
  ∀ s t : State, step s = .next t → (StorageOk s → StorageOk t) ∧ (OverrideOk s → OverrideOk t)

/-- 60_exceptions.md R602: in a state that meets the invariants of R385 and R513 no step ends in a
fault `InvariantViolation`; the only faults left are the caller's and the host's. -/
def Obligations.NoInvariantViolation : Prop :=
  ∀ (s : State) (f : Fault), Dma2Ok s → StorageOk s → step s = .fault f →
    f = .protocolViolation ∨ f = .loadSizeError ∨ f = .storageIoError

/-- 70_reset_and_hazards.md R640 to R642: whatever the legal parameters and the save file, the state after
construction meets every invariant, and its I/O registers read as R642 says. A read of one has no other
effect than its value (20_memory.md R125). -/
def Obligations.ConstructionLeavesResetState : Prop :=
  ∀ (c : Config) (h : HostIn) (f : SaveFile) (s : State), construct c h f = .next s →
    Inv s
    ∧ (c.gen = .gen1 →
      (∀ i ∈ [Instr.gbDmaRead, .gbBootRead, .gbHdma1Read, .gbHdma2Read, .gbHdma3Read, .gbHdma4Read,
              .gbHdma5Read], exec i s = .next (gave 0xFF s))
      ∧ exec .gbVbkRead s = .next (gave (if c.cgb then 0xFE else 0xFF) s)
      ∧ exec .gbSvbkRead s = .next (gave (if c.cgb then 0xF8 else 0xFF) s))
    ∧ (c.gen = .gen2 → ∀ k : Chan, exec (dmaReadRow k 10 .b2) s = .next (gave 0 s))

/-- 70_reset_and_hazards.md R640, R641: `State.reset` is the state of reset values with the parameters of
log 2, which `load` has not yet been made on, and meets every invariant. Construction from legal parameters
is the `load` of the caller's file on that state, after which no second one may be made. (That a caller
may run the block from `State.reset` without a `load` is the model's choice, log 28.) -/
def Obligations.ResetIsConstructed : Prop :=
  State.ofConfig Config.standard State.reset.host = State.reset ∧ Inv State.reset
  ∧ ∀ (c : Config) (h : HostIn) (f : SaveFile) (i : Instr), constructionRefusal c = none →
      (i = .loadGen1 f ∨ i = .loadGen2 f) →
      construct c h f
        = match exec i (State.ofConfig c h) with
          | .next t => .next { t with loadable := false }
          | .fault e => .fault e
          | .refused r => .refused r

/-- 42_bank_controllers.md R262, 60_exceptions.md R609: a block of either generation is built from
exactly the parameters the rules allow; from others none is, whatever the save file. Which parameters each
generation checks is the model's reading (log 17): R609 by its letter would refuse a wrong `BOOT` length and
illegal metadata under generation 2, and a wrong `BIOS` length under generation 1.
That Family D with rumble may have 0x10000 bytes of RAM is log 26. -/
def Obligations.ConstructionIsLegal : Prop :=
  ∀ (c : Config) (h : HostIn),
    ((∃ s, construct c h .absent = .next s)
      ∨ ∀ f : SaveFile, ∃ w, construct c h f = .refused (.construction w))
    ∧ (c.gen = .gen1 →
      ((∃ s, construct c h .absent = .next s)
        ↔ LegalCart c.cart ∧ LegalTiming c.timing
          ∧ ∀ m, c.boot = some m → m.size = 0x100 ∨ m.size = 0x900))
    ∧ (c.gen = .gen2 →
      ((∃ s, construct c h .absent = .next s)
        ↔ c.cart.otherDevice = false ∧ LegalTiming c.timing ∧ c.cgb = false ∧ c.bios.size = 0x4000
          ∧ c.rom.size ≤ 0x02000000))

/-- 00_scope.md R8 to R14: no step changes the parameters. Every step keeps every memory of the size the
parameters give it (10_state.md R33 to R36, R42, R44). -/
def Obligations.ParametersAndSizesAreFixed : Prop :=
  ∀ s t : State, step s = .next t → t.cfg = s.cfg ∧ (SizesOk s → SizesOk t)

/-- 41_bus.md R236, 10_state.md R49, 60_exceptions.md R604: every read and write of the CPU ends in the
fault `ProtocolViolation` exactly while the CPU is stalled, before anything else is looked at;
otherwise generation 1 refuses every access of two or four bytes, by whatever master (20_memory.md
R110). -/
def Obligations.StallFaultsThenWidthRefuses : Prop :=
  (∀ (s : State) (i : Instr), cpuAccess i = true →
    (exec i s = .fault .protocolViolation ↔ Stalled s))
  ∧ ∀ (s : State) (m : Master) (k : AccessKind) (a : Word) (h : Half) (v : Word),
    s.cfg.gen = .gen1 → (m = .cpu → ¬ Stalled s) →
    exec (.busRead16 m k a) s = .refused .widthGen1 ∧ exec (.busRead32 m k a) s = .refused .widthGen1
    ∧ exec (.busWrite16 m a h) s = .refused .widthGen1
    ∧ exec (.busWrite32 m a v) s = .refused .widthGen1

/-- 45_rtc.md R411, 41_bus.md R227: `tick` changes neither the clock nor the bank state. -/
def Obligations.TickLeavesClockAndBank : Prop :=
  ∀ (c : Int) (s t : State), exec (.tick c) s = .next t →
    t.g1.rtc = s.g1.rtc ∧ t.g1.bank = s.g1.bank ∧ t.g1.rumble = s.g1.rumble

/-- 30_encoding.md R173, 41_bus.md R226: a negative count is refused, `tick(0)` changes nothing, and
with no DMA under way and no storage operation pending no tick changes anything. A tick split in two
reaches the same state, or ends the same way (70_reset_and_hazards.md R659). -/
def Obligations.TickCounts : Prop :=
  (∀ (c : Int) (s : State), c < 0 → exec (.tick c) s = .refused .negativeTick)
  ∧ (∀ s : State, exec (.tick 0) s = .next s)
  ∧ (∀ (c : Int) (s : State), 0 ≤ c → Idle s → exec (.tick c) s = .next s)
  ∧ ∀ (a b : Int) (s : State), 0 ≤ a → 0 ≤ b →
      exec (.tick (a + b)) s
        = match exec (.tick a) s with
          | .next t => exec (.tick b) t
          | .fault f => .fault f
          | .refused r => .refused r

/-- 48_persistence.md R550: once a call has been made, `load` is refused and changes nothing, and it
stays so. -/
def Obligations.LoadOnlyBeforeOtherCalls : Prop :=
  (∀ (f : SaveFile) (s : State), s.loadable = false →
    exec (.loadGen1 f) s = .refused .lateLoad ∧ exec (.loadGen2 f) s = .refused .lateLoad)
  ∧ (∀ (p : Pending) (rest : List Pending) (s t : State), s.pending = p :: rest →
    step s = .next t → t.loadable = false)
  ∧ ∀ s t : State, s.loadable = false → step s = .next t → t.loadable = false

/-- 60_exceptions.md R610, R611: a request reaches the interrupt sink only inside a generation-2 tick;
requests already made are never taken back. -/
def Obligations.InterruptsOnlyFromGen2Tick : Prop :=
  ∀ (i : Instr) (s t : State), exec i s = .next t →
    (∃ l, requests t = requests s ++ l)
    ∧ (s.cfg.gen = .gen1 ∨ (∀ c, i ≠ .tick c) → requests t = requests s)

/-- 43_storage_battery_eeprom.md R321, R346: once `load` can no longer be made, a resolved variant stays
the same variant of the same size; a flash keeps its identifier, and an Eeprom whose address length is
known keeps it. -/
def Obligations.ResolvedVariantStays : Prop :=
  ∀ s t : State, s.loadable = false → s.g2.nvs2 ≠ .unresolved → step s = .next t →
    SameVariant s.g2.nvs2 t.g2.nvs2

/-- 20_memory.md R125: a read, of whatever width and by whatever master, changes no state but the
boot-ROM latch (a fetch inside the boot ROM), the staged bits of the Eeprom (a read of its window) and
what it sends to `io_ext`. (The value returned and the count of free values are the model's own.) -/
def Obligations.ReadsLeaveStateUnchanged : Prop :=
  ∀ (w : Width) (m : Master) (k : AccessKind) (a : Word) (s t : State),
    exec (readRow w m k a) s = .next t →
    t = { s with result := t.result, outs := t.outs, draws := t.draws,
                 g2.biosLatch := t.g2.biosLatch, g2.nvs2 := t.g2.nvs2 }
    ∧ requests t = requests s
    ∧ (¬ (s.cfg.gen = .gen2 ∧ m = .cpu ∧ k = .fetch ∧ s.host.cpu.pcInBios = true ∧ a < 0x4000) →
        t.g2.biosLatch = s.g2.biosLatch)
    ∧ (s.cfg.gen = .gen1 ∨ inEepromWindow s.cfg a = false ∨ (∀ e, s.g2.nvs2 ≠ .eeprom e) →
        t.g2.nvs2 = s.g2.nvs2)
    ∧ ∀ e, s.g2.nvs2 = .eeprom e →
        ∃ n ≤ 2, t.g2.nvs2 = .eeprom { e with staged := e.staged.drop n }

/-- 20_memory.md R120, R121, R123: what a generation-1 CPU read of a held-back location returns, and
that such a read or write changes nothing. Object memory under the running object-memory DMA comes
first, the blocked bus next, the screen's gates last. -/
def Obligations.HeldBackCpuAccess : Prop :=
  ∀ (s : State) (a : Half) (v : Byte) (k : AccessKind), s.cfg.gen = .gen1 → ¬ Stalled s →
    (OamBusy s a →
      exec (.busRead8 .cpu k (gbAddr a)) s = .next (gave 0xFF s)
      ∧ exec (.busWrite8 .cpu (gbAddr a) v) s = .next s)
    ∧ (¬ OamBusy s a → s.g1.blocked ≠ .none → (busOf s.cfg a).toBlocked = s.g1.blocked →
      exec (.busRead8 .cpu k (gbAddr a)) s = .next (gave (byte s.g1.dmaLastByte) s)
      ∧ exec (.busWrite8 .cpu (gbAddr a) v) s = .next s)
    ∧ (¬ OamBusy s a → (s.g1.blocked = .none ∨ (busOf s.cfg a).toBlocked ≠ s.g1.blocked) →
        Gated s a →
      exec (.busRead8 .cpu k (gbAddr a)) s = .next (gave 0xFF s)
      ∧ exec (.busWrite8 .cpu (gbAddr a) v) s = .next s)

/-! ### Generation 1: I/O registers -/

/-- 41_bus.md R230, 46_dma_gen1.md R451, R452, R453, R457: a write of 0xFF46 keeps the byte and starts a
transfer from its page, whatever runs; a read returns the byte. -/
def Obligations.ObjectDmaRegister : Prop :=
  ∀ (s : State) (v : Byte), Open1 s 0xFF46 →
    exec (.gbDmaWrite v) s
      = .next (with1 s
          { s.g1 with
            oamDma := { state := if s.cfg.timing.oamStart = 0 then .active else .starting,
                        reg := v,
                        src := BitVec.ofNat 16 (v.toNat * 256 - if 0xE0 ≤ v then 0x2000 else 0),
                        index := 0,
                        counter := if s.cfg.timing.oamStart = 0 then s.cfg.timing.oamUnit
                                   else s.cfg.timing.oamStart },
            blocked := if s.cfg.timing.oamStart = 0 then
                (busOf s.cfg (BitVec.ofNat 16 (v.toNat * 256 - if 0xE0 ≤ v then 0x2000 else 0))).toBlocked
              else .none })
    ∧ exec .gbDmaRead s = .next (gave (byte s.g1.oamDma.reg) s)

/-- 41_bus.md R231 to R233, 10_state.md R50: the two bank registers and the boot switch, written and
read, on a colour machine and on one that is not; a write of 0xFF50 never enables the boot ROM. -/
def Obligations.BankAndBootRegisters : Prop :=
  ∀ (s : State) (v : Byte),
    (Open1 s 0xFF4F →
      exec (.gbVbkWrite v) s
        = .next (if s.cfg.cgb then with1 s { s.g1 with vbk := BitVec.ofBool (v.getLsbD 0) } else s)
      ∧ exec .gbVbkRead s
        = .next (gave (if s.cfg.cgb then 0xFE ||| s.g1.vbk.setWidth 32 else 0xFF) s))
    ∧ (Open1 s 0xFF70 →
      exec (.gbSvbkWrite v) s
        = .next (if s.cfg.cgb then with1 s { s.g1 with svbk := BitVec.ofNat 3 v.toNat } else s)
      ∧ exec .gbSvbkRead s
        = .next (gave (if s.cfg.cgb then 0xF8 ||| s.g1.svbk.setWidth 32 else 0xFF) s))
    ∧ (Open1 s 0xFF50 →
      exec (.gbBootWrite v) s
        = .next (if v = 0 then s else with1 s { s.g1 with bootEnabled := false })
      ∧ exec .gbBootRead s = .next (gave 0xFF s))

/-- 10_state.md R32, 41_bus.md R232: no step enables the boot ROM again. -/
def Obligations.BootRomStaysDisabled : Prop :=
  ∀ s t : State, s.g1.bootEnabled = false → step s = .next t → t.g1.bootEnabled = false

/-- 46_dma_gen1.md R461, 41_bus.md R234: the four address registers of the video-RAM DMA. They read
0xFF; on a machine that is not a colour one a write changes nothing. -/
def Obligations.VideoDmaAddressRegisters : Prop :=
  ∀ (s : State) (v : Byte),
    (Open1 s 0xFF51 →
      exec (.gbHdma1 v) s
        = .next (if s.cfg.cgb then with1 s { s.g1 with
            vdma.src := (v.setWidth 16 <<< 8) ||| (s.g1.vdma.src &&& 0x00F0) } else s)
      ∧ exec .gbHdma1Read s = .next (gave 0xFF s))
    ∧ (Open1 s 0xFF52 →
      exec (.gbHdma2 v) s
        = .next (if s.cfg.cgb then with1 s { s.g1 with
            vdma.src := (s.g1.vdma.src &&& 0xFF00) ||| (v.setWidth 16 &&& 0xF0) } else s)
      ∧ exec .gbHdma2Read s = .next (gave 0xFF s))
    ∧ (Open1 s 0xFF53 →
      exec (.gbHdma3 v) s
        = .next (if s.cfg.cgb then with1 s { s.g1 with
            vdma.dst := ((v.setWidth 13 &&& 0x1F) <<< 8) ||| (s.g1.vdma.dst &&& 0x00F0) } else s)
      ∧ exec .gbHdma3Read s = .next (gave 0xFF s))
    ∧ (Open1 s 0xFF54 →
      exec (.gbHdma4 v) s
        = .next (if s.cfg.cgb then with1 s { s.g1 with
            vdma.dst := (s.g1.vdma.dst &&& 0x1F00) ||| (v.setWidth 13 &&& 0xF0) } else s)
      ∧ exec .gbHdma4Read s = .next (gave 0xFF s))

/-- 46_dma_gen1.md R462 to R465, R470, 41_bus.md R234: what 0xFF55 does on a colour machine; on another
it ignores writes and reads 0xFF. From Inactive a write
starts a general transfer (bit 7 clear) or arms an hblank transfer (bit 7 set); while an hblank
transfer is Paused a write with bit 7 clear cancels it, one with bit 7 set is refused. The read shows
the blocks left, or the status. -/
def Obligations.VideoDmaLengthRegister : Prop :=
  ∀ (s : State) (len : BitVec 7), Open1 s 0xFF55 →
    (s.cfg.cgb = false →
      exec (.gbHdma5Gdma len) s = .next s ∧ exec (.gbHdma5Hdma len) s = .next s
      ∧ exec (.gbHdma5Cancel len) s = .next s ∧ exec (.gbHdma5Restart len) s = .next s
      ∧ exec .gbHdma5Read s = .next (gave 0xFF s))
    ∧ (s.cfg.cgb = true → s.g1.vdma.state = .inactive →
      let general : Host.Outcome State Fault Refusal := .next (with1 s { s.g1 with
        vdma.mode := .general, vdma.blocks := len.toNat + 1, vdma.state := .active,
        vdma.counter := s.cfg.timing.vdmaBlock })
      let hblank : Host.Outcome State Fault Refusal := .next (with1 s { s.g1 with
        vdma.mode := .hblank, vdma.blocks := len.toNat + 1, vdma.state := .paused })
      exec (.gbHdma5Gdma len) s = general ∧ exec (.gbHdma5Cancel len) s = general
      ∧ exec (.gbHdma5Hdma len) s = hblank ∧ exec (.gbHdma5Restart len) s = hblank
      ∧ exec .gbHdma5Read s = .next (gave (byte s.g1.vdma.status) s))
    ∧ (s.cfg.cgb = true → s.g1.vdma.state = .paused → s.g1.vdma.mode = .hblank →
      let cancelled : Host.Outcome State Fault Refusal := .next (with1 s { s.g1 with
        vdma.status := 0x80 ||| (BitVec.ofNat 8 (s.g1.vdma.blocks - 1) &&& 0x7F),
        vdma.state := .inactive })
      exec (.gbHdma5Cancel len) s = cancelled ∧ exec (.gbHdma5Gdma len) s = cancelled
      ∧ exec (.gbHdma5Restart len) s = .refused .vdmaRestart
      ∧ exec (.gbHdma5Hdma len) s = .refused .vdmaRestart
      ∧ exec .gbHdma5Read s
          = .next (gave (byte (BitVec.ofNat 8 (s.g1.vdma.blocks - 1) &&& 0x7F)) s))

/-- 41_bus.md R229, 20_memory.md R104, R107: every I/O address that the block does not own is forwarded,
for every master that reaches it. On generation 1 these are 0xFF00-0xFF7F but the registers of R50, and
0xFFFF: a read sends the address out once and returns a free value (R18), a write sends the address and the
byte, and changes no state. On generation 2 they are 0x04000000-0x040003FF but the DMA registers: each
halfword that the access covers is read or written once, under the byte mask of the bytes written (R203),
four bytes being two halfwords, the lower first (R222, R225). -/
def Obligations.UnownedIoIsForwarded : Prop :=
  (∀ (s : State) (m : Master) (k : AccessKind) (a : BitVec 7) (v : Byte), forwardable a = true →
    let io : Half := 0b111111110#9 ++ a
    (Open1By s m io → ∃ x : Byte,
      (∀ i ∈ .busRead8 m k (gbAddr io) :: (if m = .cpu then [Instr.gbIoForwardRead a] else []),
        exec i s = .next { gave (byte x) s with outs := s.outs ++ [.ioRead8 io], draws := s.draws + 1 })
      ∧ exec (.busWrite8 m (gbAddr io) v) s = .next { s with outs := s.outs ++ [.ioWrite8 io v] })
    ∧ (Open1By s m 0xFFFF → ∃ x : Byte,
      exec (.busRead8 m k 0xFFFF) s
        = .next { gave (byte x) s with outs := s.outs ++ [.ioRead8 0xFFFF], draws := s.draws + 1 }
      ∧ exec (.busWrite8 m 0xFFFF v) s = .next { s with outs := s.outs ++ [.ioWrite8 0xFFFF v] }))
  ∧ ∀ (s : State) (m : Master) (k : AccessKind) (a v : Word), Open2By s m →
      0x04000000 ≤ a.toNat → a.toNat < 0x04000400 → (a.toNat < 0x040000B0 ∨ 0x040000E0 ≤ a.toNat) →
      let u : Word := BitVec.ofNat 32 (a.toNat / 2 * 2)
      let q : Word := BitVec.ofNat 32 (a.toNat / 4 * 4)
      let odd := decide (a.toNat % 2 = 1)
      let b : Byte := v.setWidth 8
      (∃ h : Half, ∀ p ∈ [(Instr.busRead16 m k a, h.setWidth 32),
                          (.busRead8 m k a, byte (h.extractLsb' (8 * (a.toNat % 2)) 8))],
        exec p.1 s = .next { gave p.2 s with outs := s.outs ++ [.ioRead16 u], draws := s.draws + 1 })
      ∧ (∃ hi lo : Half, exec (.busRead32 m k a) s
          = .next { gave (hi ++ lo) s with
                    outs := s.outs ++ [.ioRead16 q, .ioRead16 (q + 2)], draws := s.draws + 2 })
      ∧ exec (.busWrite8 m a b) s
          = .next { s with outs := s.outs ++
              [.ioWrite16 u (if odd then b ++ 0#8 else 0#8 ++ b) (if odd then 0xFF00 else 0x00FF)] }
      ∧ ∀ w, w = .b2 ∨ w = .b4 →
          exec (writeRow w m a v) s = .next { s with outs := s.outs ++ ioWrites w a.toNat v }

/-! ### Generation 1: bank controllers -/

/-- 42_bank_controllers.md R271 to R274: the control registers of Family A, and that a write of one
leaves everything else as it was. -/
def Obligations.FamilyAControl : Prop :=
  ∀ (s : State) (a : BitVec 13) (v : Byte), s.cfg.cart.family = .a →
    (Open1 s (0#3 ++ a) → exec (.aRamg a v) s
      = .next (with1 s { s.g1 with bank.ramEnabled :=
          if 0 < s.cfg.cart.ramSize then decide (v &&& 0x0F = 0x0A) else s.g1.bank.ramEnabled }))
    ∧ (Open1 s (1#3 ++ a) → exec (.aRomb0 a v) s
      = .next (with1 s { s.g1 with bank.romBank :=
          if v &&& 0x1F = 0 then 1 else v.setWidth 16 &&& 0x1F }))
    ∧ (Open1 s (2#3 ++ a) → exec (.aRamb a v) s
      = .next (with1 s { s.g1 with bank.ramBank := v &&& 0x03 }))
    ∧ (Open1 s (3#3 ++ a) → exec (.aMode a v) s
      = .next (with1 s { s.g1 with bank.mode := BitVec.ofBool (v.getLsbD 0) }))

/-- 42_bank_controllers.md R277, R278, R270: Family B, where address bit 8 alone chooses the register,
and a ROM-only cartridge, which ignores every control write. -/
def Obligations.FamilyBAndRomOnlyControl : Prop :=
  ∀ (s : State) (hi : BitVec 5) (lo : Byte) (a : BitVec 14) (x : BitVec 15) (v : Byte),
    (s.cfg.cart.family = .b → Open1 s (0#2 ++ hi ++ 0#1 ++ lo) → exec (.bRamg hi lo v) s
      = .next (with1 s { s.g1 with bank.ramEnabled := decide (v &&& 0x0F = 0x0A) }))
    ∧ (s.cfg.cart.family = .b → Open1 s (0#2 ++ hi ++ 1#1 ++ lo) → exec (.bRomb hi lo v) s
      = .next (with1 s { s.g1 with bank.romBank :=
          if v &&& 0x0F = 0 then 1 else v.setWidth 16 &&& 0x0F }))
    ∧ (s.cfg.cart.family = .b → Open1 s (1#2 ++ a) → exec (.bIgnored a v) s = .next s)
    ∧ (s.cfg.cart.family = .romOnly → Open1 s (0#1 ++ x) → exec (.noneIgnored x v) s = .next s)

/-- 42_bank_controllers.md R281 to R284, 45_rtc.md R416: Family C. A latch strobe of 0x01 right after
0x00 copies the running clock into the snapshot, and raises the day carry where 512 days have passed;
any other byte is only remembered. That the select register of a cartridge with neither RAM nor clock
ignores the write is the model's reading (log 25): R295 says so of absent devices, where R283 by its letter
stores the value. -/
def Obligations.FamilyCControl : Prop :=
  ∀ (s : State) (a : BitVec 13) (v : Byte), s.cfg.cart.family = .c →
    (Open1 s (0#3 ++ a) → exec (.cRamg a v) s
      = .next (with1 s { s.g1 with bank.ramEnabled :=
          if 0 < s.cfg.cart.ramSize ∨ s.cfg.cart.hasRtc = true then decide (v &&& 0x0F = 0x0A)
          else s.g1.bank.ramEnabled }))
    ∧ (Open1 s (1#3 ++ a) → exec (.cRomb a v) s
      = .next (with1 s { s.g1 with bank.romBank :=
          if v &&& 0x7F = 0 then 1 else v.setWidth 16 &&& 0x7F }))
    ∧ (Open1 s (2#3 ++ a) → exec (.cRamb a v) s
      = .next (with1 s { s.g1 with bank.ramBank :=
          if 0 < s.cfg.cart.ramSize ∨ s.cfg.cart.hasRtc = true then v else s.g1.bank.ramBank }))
    ∧ (Open1 s (3#3 ++ a) →
      (s.cfg.cart.hasRtc = false → exec (.cLatch a v) s = .next s)
      ∧ (s.cfg.cart.hasRtc = true → ¬ (s.g1.bank.latchLast = 0x00 ∧ v = 0x01) →
        exec (.cLatch a v) s = .next (with1 s { s.g1 with bank.latchLast := v }))
      ∧ (s.cfg.cart.hasRtc = true → s.g1.bank.latchLast = 0x00 → v = 0x01 →
        ∃ r : Rtc, exec (.cLatch a v) s
            = .next (with1 s { s.g1 with bank.latchLast := v, rtc := r })
          ∧ r.latched = { s := (unit (elapsedOf s) 1 60).toNat, m := (unit (elapsedOf s) 60 60).toNat,
                          h := (unit (elapsedOf s) 3600 24).toNat,
                          d := (unit (elapsedOf s) 86400 512).toNat }
          ∧ r.carry = (s.g1.rtc.carry || decide (512 ≤ elapsedOf s / 86400))
          ∧ r.halted = s.g1.rtc.halted ∧ r.haltedInstant = s.g1.rtc.haltedInstant
          ∧ r.reference = normalizedReference s))

/-- 42_bank_controllers.md R288 to R292: Family D. ROM bank 0 is not promoted; with rumble, bit 3 of
the RAM-bank register drives the motor and is no bank bit. That no bank is stored without RAM is the model's
reading (log 25): R295 says so of absent devices, where R291 by its letter stores the value. -/
def Obligations.FamilyDControl : Prop :=
  ∀ (s : State) (a : BitVec 13) (b : BitVec 12) (v : Byte), s.cfg.cart.family = .d →
    (Open1 s (0#3 ++ a) → exec (.dRamg a v) s
      = .next (with1 s { s.g1 with bank.ramEnabled :=
          if 0 < s.cfg.cart.ramSize then decide (v &&& 0x0F = 0x0A) else s.g1.bank.ramEnabled }))
    ∧ (Open1 s (2#4 ++ b) → exec (.dRomb0 b v) s
      = .next (with1 s { s.g1 with bank.romBank := (s.g1.bank.romBank &&& 0xFF00) ||| v.setWidth 16 }))
    ∧ (Open1 s (3#4 ++ b) → exec (.dRomb1 b v) s
      = .next (with1 s { s.g1 with bank.romBank :=
          (v.setWidth 16 <<< 8) ||| (s.g1.bank.romBank &&& 0x00FF) }))
    ∧ (Open1 s (2#3 ++ a) → exec (.dRamb a v) s
      = .next (if s.cfg.cart.hasRumble then
          with1 s { s.g1 with
            bank.rumble := BitVec.ofBool (v.getLsbD 3), rumble := v.getLsbD 3,
            bank.ramBank := if 0 < s.cfg.cart.ramSize then v &&& 0x07 else s.g1.bank.ramBank }
        else with1 s { s.g1 with
          bank.ramBank := if 0 < s.cfg.cart.ramSize then v &&& 0x0F else s.g1.bank.ramBank }))
    ∧ (Open1 s (3#3 ++ a) → exec (.dIgnored a v) s = .next s)

/-- 42_bank_controllers.md R268, R270, R275, R279, R285, R293: what a read of 0x0000-0x7FFF returns, on
every family, by every row that reads there; where the boot ROM is enabled and covers the address it
answers instead (20_memory.md R101, 41_bus.md R221). The read has no other effect. -/
def Obligations.RomWindowRead : Prop :=
  ∀ (s : State) (a : BitVec 15), Open1 s (0#1 ++ a) → BankOk s →
    ∀ v : Byte,
    (¬ Overlaid s a.toNat → v = s.cfg.rom.read (romOffsetOf s a.toNat)) →
    (Overlaid s a.toNat → ∃ m, s.cfg.boot = some m ∧ v = m.read a.toNat) →
    exec (.aRomMap a) s = .next (gave (byte v) s)
    ∧ exec (.bRomMap a) s = .next (gave (byte v) s)
    ∧ exec (.cRomMap a) s = .next (gave (byte v) s)
    ∧ exec (.dRomMap a) s = .next (gave (byte v) s)
    ∧ (∀ x : BitVec 14, a = 0#1 ++ x →
        exec (.romReadLow x) s = .next (gave (byte v) s))
    ∧ (∀ x : BitVec 14, a = 1#1 ++ x →
        exec (.romReadHigh x) s = .next (gave (byte v) s))

/-- 42_bank_controllers.md R276, R280, R286, R287, R293, R305, R306: what a read of the RAM window
returns where it shows RAM or nothing, by every row that reads there. -/
def Obligations.RamWindowRead : Prop :=
  ∀ (s : State) (a : BitVec 13), Open1 s (5#3 ++ a) → SizesOk s →
    (∀ sel, 0x08 ≤ sel → sel ≤ 0x0C → ¬ RtcSelected s sel) →
    ∀ i ∈ [Instr.cartRamRead a, .aRamMap a, .bRamMap a, .cRamMap a, .rtcRead a],
      exec i s = .next (gave (byte (ramShown s (ramOffsetOf s (0xA000 + a.toNat)))) s)

/-- 42_bank_controllers.md R305, R280: a write of the RAM window where it shows RAM or nothing, by every
row that writes there. It stores the byte (of Family B's cells the low nibble) at the offset the bank
state selects, every other byte reads as before, and nothing else changes; with no RAM shown it changes
nothing. -/
def Obligations.RamWindowWrite : Prop :=
  ∀ (s : State) (a : BitVec 13) (v : Byte), Open1 s (5#3 ++ a) → SizesOk s → MemoryOk s →
    (∀ sel, 0x08 ≤ sel → sel ≤ 0x0C → ¬ RtcSelected s sel) →
    ∀ i ∈ [Instr.cartRamWrite a v, .rtcWriteS a v, .rtcWriteM a v, .rtcWriteH a v, .rtcWriteDl a v,
           .rtcWriteDh a v],
      (ramOffsetOf s (0xA000 + a.toNat) = none → exec i s = .next s)
      ∧ ∀ o, ramOffsetOf s (0xA000 + a.toNat) = some o →
        ∃ n, exec i s = .next (with1 s { s.g1 with nvs1 := n })
          ∧ ramByte (with1 s { s.g1 with nvs1 := n }) o
              = (if s.cfg.cart.family = .b then v &&& 0x0F else v)
          ∧ ∀ x, x ≠ o → ramByte (with1 s { s.g1 with nvs1 := n }) x = ramByte s x

/-! ### Generation 1: the clock -/

/-- 45_rtc.md R413, R417, R425: the five clock registers read the snapshot and the live flags; the read
changes nothing. -/
def Obligations.ClockRegisterReads : Prop :=
  ∀ (s : State) (a : BitVec 13), Open1 s (5#3 ++ a) →
    ∀ i ∈ [Instr.rtcRead a, .cartRamRead a, .aRamMap a, .bRamMap a, .cRamMap a],
      ∀ sel, 0x08 ≤ sel → sel ≤ 0x0C → RtcSelected s sel →
        exec i s = .next (gave (byte (clockByte s sel)) s)

/-- 45_rtc.md R415, R418, R423: a write of seconds, minutes, hours or the low day byte sets that unit
of the running clock and of the snapshot, and leaves every other unit, the halt flag and the rest of the
machine as they were; a byte above its unit's range is refused. That the whole byte is checked, so that a bit
above the register's field puts it out of range, is the model's reading (R418, R423, D40; R179 calls such bits
ignored; log 29). -/
def Obligations.ClockUnitWrites : Prop :=
  ∀ (s : State) (a : BitVec 13) (v : Byte), Open1 s (5#3 ++ a) →
    let e := elapsedOf s
    let l := s.g1.rtc.latched
    let units := fun (i : Instr) (moved sec min hr day : Int) (l' : Latched) =>
      ∃ r : Rtc, exec i s = .next (with1 s { s.g1 with rtc := r })
        ∧ unit (elapsedOf (with1 s { s.g1 with rtc := r })) 1 60 = sec
        ∧ unit (elapsedOf (with1 s { s.g1 with rtc := r })) 60 60 = min
        ∧ unit (elapsedOf (with1 s { s.g1 with rtc := r })) 3600 24 = hr
        ∧ unit (elapsedOf (with1 s { s.g1 with rtc := r })) 86400 512 = day
        ∧ r.reference = normalizedReference s - moved
        ∧ r.latched = l' ∧ r.halted = s.g1.rtc.halted ∧ r.haltedInstant = s.g1.rtc.haltedInstant
        ∧ r.carry = (s.g1.rtc.carry || decide (512 ≤ e / 86400))
    (RtcSelected s 0x08 →
      (v < 60 → units (.rtcWriteS a v) (v.toNat - unit e 1 60)
        v.toNat (unit e 60 60) (unit e 3600 24) (unit e 86400 512) { l with s := v.toNat })
      ∧ (60 ≤ v → exec (.rtcWriteS a v) s = .refused .rtcRange))
    ∧ (RtcSelected s 0x09 →
      (v < 60 → units (.rtcWriteM a v) ((v.toNat - unit e 60 60) * 60)
        (unit e 1 60) v.toNat (unit e 3600 24) (unit e 86400 512) { l with m := v.toNat })
      ∧ (60 ≤ v → exec (.rtcWriteM a v) s = .refused .rtcRange))
    ∧ (RtcSelected s 0x0A →
      (v < 24 → units (.rtcWriteH a v) ((v.toNat - unit e 3600 24) * 3600)
        (unit e 1 60) (unit e 60 60) v.toNat (unit e 86400 512) { l with h := v.toNat })
      ∧ (24 ≤ v → exec (.rtcWriteH a v) s = .refused .rtcRange))
    ∧ (RtcSelected s 0x0B →
      units (.rtcWriteDl a v)
        ((unit e 86400 512 / 256 * 256 + v.toNat - unit e 86400 512) * 86400)
        (unit e 1 60) (unit e 60 60) (unit e 3600 24) (unit e 86400 512 / 256 * 256 + v.toNat)
        { l with d := l.d / 256 % 2 * 256 + v.toNat })

/-- 45_rtc.md R419 to R422: a write of the flags register sets day bit 8, the halt flag and the carry.
The time of day does not move. A clock it halts shows the same time at every later instant; a clock it
leaves running runs on from the time it showed. -/
def Obligations.ClockFlagsWrite : Prop :=
  ∀ (s : State) (a : BitVec 13) (v : Byte), Open1 s (5#3 ++ a) → RtcSelected s 0x0C →
    let e := elapsedOf s
    ∃ r : Rtc, exec (.rtcWriteDh a v) s = .next (with1 s { s.g1 with rtc := r })
      ∧ r.halted = v.getLsbD 6 ∧ r.carry = v.getLsbD 7
      ∧ r.haltedInstant
          = (if v.getLsbD 6 = true ∧ s.g1.rtc.halted = false then s.host.now
             else s.g1.rtc.haltedInstant)
      ∧ r.reference
          = normalizedReference s
            - ((if v.getLsbD 0 then 256 else 0) + unit e 86400 512 % 256 - unit e 86400 512) * 86400
            + (if v.getLsbD 6 = false ∧ s.g1.rtc.halted = true then s.host.now - s.g1.rtc.haltedInstant
               else 0)
      ∧ r.latched = { s.g1.rtc.latched with
          d := (if v.getLsbD 0 then 256 else 0) + s.g1.rtc.latched.d % 256 }
      ∧ ∀ now : Int, s.host.now ≤ now →
          let e' := elapsedOf { with1 s { s.g1 with rtc := r } with host.now := now }
          let on : Int := if v.getLsbD 6 then 0 else now - s.host.now
          unit (e' - on) 1 60 = unit e 1 60 ∧ unit (e' - on) 60 60 = unit e 60 60
          ∧ unit (e' - on) 3600 24 = unit e 3600 24
          ∧ unit (e' - on) 86400 512
              = (if v.getLsbD 0 then 256 else 0) + unit e 86400 512 % 256

/-! ### Generation 1: work RAM, widths, DMA -/

/-- 20_memory.md R101 to R103, 10_state.md R33 to R36, 41_bus.md R221, R224: in video RAM (through the bank
its register selects), work RAM (through its bank register, and through the echo too), object memory and
high RAM a read, by every master that reaches the place, gives the byte there, and a write stores one; every
other byte of every memory, and all else, is as before. In the prohibited region 0xFEA0-0xFEFF a read gives
a free value and a write is ignored. -/
def Obligations.WorkRamReadAfterWrite : Prop :=
  ∀ (s : State) (m : Master) (k : AccessKind) (a : Half) (v : Byte), Open1By s m a →
    MemoryOk s → SizesOk s →
    (∀ r o, ram1At s a.toNat = some (r, o) →
      exec (.busRead8 m k (gbAddr a)) s = .next (gave (byte ((r.image s.g1).read o)) s)
      ∧ ∃ x : Image, exec (.busWrite8 m (gbAddr a) v) s = .next (with1 s (r.put x s.g1))
        ∧ StoredAt (r.image s.g1) x o 1 fun _ => v)
    ∧ (0xFEA0 ≤ a.toNat → a.toNat ≤ 0xFEFF →
      (∃ x : Byte, exec (.busRead8 m k (gbAddr a)) s
        = .next { gave (byte x) s with draws := s.draws + 1 })
      ∧ exec (.busWrite8 m (gbAddr a) v) s = .next s)

/-- 46_dma_gen1.md R450, R451, R453 to R456: a transfer started from a page of the first work-RAM bank
takes the start delay and 160 units, and then has copied the page's first 160 bytes into object memory;
the bus is free again, the byte last read is held, and nothing else has changed. -/
def Obligations.ObjectDmaCopiesPage : Prop :=
  ∀ (s t : State) (v : Byte), Open1 s 0xFF46 → 0xC0 ≤ v → v ≤ 0xCF → MemoryOk s →
    SizesOk s → (s.cfg.cgb = true → s.g1.vdma.state ≠ .active) →
    exec (.gbDmaWrite v) s = .next t →
    ∃ m : Image,
      exec (.tick ((s.cfg.timing.oamStart + 160 * s.cfg.timing.oamUnit : Nat) : Int)) t
        = .next (with1 s { s.g1 with
            oam := m,
            oamDma := { state := .inactive, reg := v, src := BitVec.ofNat 16 (v.toNat * 256),
                        index := 160, counter := 0 },
            blocked := .none,
            dmaLastByte := s.g1.wram.read ((v.toNat - 0xC0) * 256 + 159) })
      ∧ ∀ i < 160, m.read i = s.g1.wram.read ((v.toNat - 0xC0) * 256 + i)

/-- 46_dma_gen1.md R466, R468, R469: in the cycle in which its count runs out, the video-RAM DMA moves one
block of 16 bytes into the selected video-RAM bank, each from where its source address is: the boot or the
cartridge ROM, the cartridge's RAM window, work RAM; from an address that R469 forbids it moves a free
value. Its addresses, its block count and its state follow, every other byte of video RAM reads as before,
and nothing else changes. -/
def Obligations.VideoDmaMovesBlock : Prop :=
  ∀ s : State, s.cfg.gen = .gen1 → constructionRefusal s.cfg = none → s.cfg.cgb = true →
    s.g1.vdma.state = .active → s.g1.vdma.counter = 1 → s.g1.oamDma.state = .inactive →
    MemoryOk s → SizesOk s → BankOk s → 1 ≤ s.g1.vdma.blocks →
    let d := s.g1.vdma
    let source := fun i => (d.src.toNat + i) % 0x10000
    let place := fun i => s.g1.vbk.toNat * 0x2000 + (d.dst.toNat + i) % 0x2000
    ∃ (m : Image) (free : List Nat),
      (∀ i, i ∈ free ↔ i < 16 ∧ Forbidden (source i)) ∧ free.Nodup
      ∧ exec (.tick 1) s
        = .next { with1 s { s.g1 with
            vram := m,
            vdma := { d with
              src := d.src + 16, dst := d.dst + 16, blocks := d.blocks - 1,
              state := if d.blocks = 1 then .inactive
                       else if d.mode = .general then .active else .paused,
              status := if d.blocks = 1 then 0xFF else d.status,
              counter := if d.blocks ≠ 1 ∧ d.mode = .general then s.cfg.timing.vdmaBlock else 0 } }
          with draws := s.draws + free.length }
      ∧ (∀ i < 16, ¬ Forbidden (source i) → m.read (place i) = dmaSourceByte s (source i))
      ∧ ∀ x, (∀ i < 16, x ≠ place i) → m.read x = s.g1.vram.read x

/-! ### Generation 2: memory -/

/-- 20_memory.md R105, R109, R112, R113, 41_bus.md R222, R225: in work RAM, palette RAM, video RAM and
object memory a read of one, two or four bytes, by every master, gives the bytes at the aligned place,
the lowest first, and a write (of at least two bytes in the last three) stores them there; every other
byte of every memory, and all else, is as before. -/
def Obligations.Gen2RamReadAndWrite : Prop :=
  ∀ (s : State) (r : Ram2) (w : Width) (m : Master) (k : AccessKind) (a v : Word), Open2By s m →
    MemoryOk s → SizesOk s → a.toNat / 0x1000000 = r.page →
    let o := r.offset (aligned w a.toNat)
    exec (readRow w m k a) s = .next (gave (BitVec.ofNat 32 (leValue (r.image s.g2) o w.bytes)) s)
    ∧ (w ≠ .b1 ∨ r = .ewram ∨ r = .iwram →
      ∃ x : Image, exec (writeRow w m a v) s = .next (with2 s (r.put x s.g2))
        ∧ StoredAt (r.image s.g2) x o w.bytes (valueByte v))

/-- 20_memory.md R115, 41_bus.md R225: a one-byte write of palette RAM, or of video RAM below the
background limit, stores the byte in both halves of its halfword; of video RAM from the limit up, and
of object memory, it is ignored. -/
def Obligations.NarrowVideoWrites : Prop :=
  ∀ (s : State) (m : Master) (a : Word) (v : Byte), Open2By s m → MemoryOk s → SizesOk s →
    (∀ r, r = Ram2.pal ∨ r = .vram ∧ Ram2.vram.offset a.toNat < s.host.bgLimit.value →
      a.toNat / 0x1000000 = r.page →
      ∃ x : Image, exec (.busWrite8 m a v) s = .next (with2 s (r.put x s.g2))
        ∧ StoredAt (r.image s.g2) x (r.offset a.toNat / 2 * 2) 2 fun _ => v)
    ∧ (a.toNat / 0x1000000 = Ram2.vram.page → s.host.bgLimit.value ≤ Ram2.vram.offset a.toNat →
      exec (.busWrite8 m a v) s = .next s)
    ∧ (a.toNat / 0x1000000 = Ram2.oam.page → exec (.busWrite8 m a v) s = .next s)

/-- 20_memory.md R116, R117, 60_exceptions.md R620, 41_bus.md R225: where nothing answers the CPU reads
its lane of the open-bus word (here with the default `OPEN_BUS_FN`). In the boot ROM it reads the bytes
while it runs there, a fetch also filling the latch, and its lane of the latch otherwise. A DMA channel
reads a free value in both. Writes to either are ignored. -/
def Obligations.OpenBusAndBootRom : Prop :=
  ∀ (s : State) (w : Width) (m : Master) (k : AccessKind) (a v : Word), Open2By s m →
    (Unmapped2 a.toNat ∨ a.toNat < 0x4000 → exec (writeRow w m a v) s = .next s)
    ∧ (Unmapped2 a.toNat ∨ a.toNat < 0x4000 → m ≠ .cpu →
      ∃ x, exec (readRow w m k a) s = .next { gave x s with draws := s.draws + 1 })
    ∧ (Unmapped2 a.toNat → m = .cpu → s.cfg.openBus = .standard →
      exec (readRow w m k a) s = .next (gave (laneValue (prefetchWord s.host.cpu) w a.toNat) s))
    ∧ (a.toNat < 0x4000 → m = .cpu → s.host.cpu.pcInBios = false →
      exec (readRow w m k a) s = .next (gave (laneValue s.g2.biosLatch w a.toNat) s))
    ∧ (a.toNat < 0x4000 → m = .cpu → s.host.cpu.pcInBios = true →
      let x : Word := BitVec.ofNat 32 (leValue s.cfg.bios (aligned w a.toNat) w.bytes)
      let fetched : Word := BitVec.ofNat 32 (leValue s.cfg.bios (a.toNat / 4 * 4) 4)
      exec (readRow w m k a) s
        = .next (match k with
          | .data => gave x s
          | .fetch => gave x (with2 s { s.g2 with biosLatch := fetched })))

/-- 20_memory.md R113, R118, 41_bus.md R222, R225, 48_persistence.md R566: cartridge ROM, wherever no
Eeprom answers: a read gives the ROM's bytes, beyond the ROM the address's own halfwords; a write is
ignored. For a ROM of odd length the upper byte of the last halfword is a free value, of which R118 says
nothing: that it is one fixed constant is the model's choice (log 16). -/
def Obligations.CartridgeRomAccess : Prop :=
  ∀ (s : State) (w : Width) (m : Master) (k : AccessKind) (a v : Word), Open2By s m →
    0x08000000 ≤ a.toNat → a.toNat < 0x0E000000 →
    (¬ ReadsEeprom s a.toNat →
      exec (readRow w m k a) s = .next (gave (romValue s w a.toNat) s)
      ∧ ∀ x : BitVec 24, a = 0x0D#8 ++ x →
        exec (.eepromDrainRead m x w) s = .next (gave (romValue s w a.toNat) s))
    ∧ (¬ ReadsEeprom s a.toNat → (m = .cpu ∨ ¬ InWindow s a.toNat ∨ s.g2.nvs2 ≠ .unresolved) →
      exec (writeRow w m a v) s = .next s)
    ∧ (¬ ReadsEeprom s a.toNat → m = .cpu → ∀ x : BitVec 24, a = 0x0D#8 ++ x →
      exec (.eepromCpuWrite x w v) s = .next s)

/-! ### Generation 2: DMA -/

/-- 30_encoding.md R180, 10_state.md R51, 40_register.md R202, R203, 47_dma_gen2.md R491 to R493: a write of
an address or count register stores the bits of its mask in its cells and touches nothing latched: by the
rows of the registers (one byte: the low byte; four bytes: both cells of an address, or the count and then
the control), and by `BUS_WRITE` at every address of them, a byte into the lane its address names, a
halfword straight into an upper cell too. A byte written to the control register is the halfword that has
the other byte as it was. A read gives the control register, where it covers it, and free values
elsewhere. -/
def Obligations.DmaRegisterCells : Prop :=
  (∀ (s : State) (k : Chan) (v : Word), Open2 s → Dma2Ok s →
    let c := chan s k
    let lowByte := fun h : Half => (h &&& 0xFF00) ||| (v.setWidth 16 &&& 0x00FF)
    let high := v.extractLsb' 16 16
    exec (sadRow k .b1 v) s = .next (withChan s k { c with sadL.value := lowByte c.sadL.value })
    ∧ exec (sadRow k .b2 v) s = .next (withChan s k { c with sadL.value := v.setWidth 16 })
    ∧ exec (sadRow k .b4 v) s = .next (withChan s k
        { c with sadL.value := v.setWidth 16, sadH.value := high &&& sadHMask k })
    ∧ exec (dadRow k .b1 v) s = .next (withChan s k { c with dadL.value := lowByte c.dadL.value })
    ∧ exec (dadRow k .b2 v) s = .next (withChan s k { c with dadL.value := v.setWidth 16 })
    ∧ exec (dadRow k .b4 v) s = .next (withChan s k
        { c with dadL.value := v.setWidth 16, dadH.value := high &&& dadHMask k })
    ∧ exec (cntLRow k .b1 v) s = .next (withChan s k { c with cntL.value := lowByte c.cntL.value })
    ∧ exec (cntLRow k .b2 v) s
        = .next (withChan s k { c with cntL.value := v.setWidth 16 &&& cntLMask k })
    ∧ exec (cntLRow k .b4 v) s
        = exec (cntHRow k .b2 (high.setWidth 32))
            (withChan s k { c with cntL.value := v.setWidth 16 &&& cntLMask k })
    ∧ exec (cntHRow k .b1 v) s = .next (withChan s k { c with
        cntH.value := (c.cntH.value &&& 0xFF00) ||| (v.setWidth 16 &&& 0x00FF &&& cntHMask k) })
    ∧ exec (cntHRow k .b4 v) s = exec (cntLRow k .b4 v) s
    ∧ ReadsChannel s c (dmaReadRow k))
  ∧ ∀ (s : State) (m : Master) (kind : AccessKind) (k : Chan) (off : Fin 12) (v : Word), Open2By s m →
      Dma2Ok s →
      let c := chan s k
      let adr := fun n : Nat => dmaBase k + BitVec.ofNat 32 n
      let i := off.val
      let h : Half := v.setWidth 16
      let b : Byte := v.setWidth 8
      let high : Half := v.extractLsb' 16 16
      let full := fun (c : DmaChannel) (j : Nat) (d : Half) => cellWritten k c j d 0xFFFF
      (i / 2 ≠ 5 →
        exec (.busWrite16 m (adr i) h) s = .next (withChan s k (full c (i / 2) h))
        ∧ exec (.busWrite8 m (adr i) b) s
            = .next (withChan s k
                (if i % 2 = 0 then cellWritten k c (i / 2) (0#8 ++ b) 0x00FF
                 else cellWritten k c (i / 2) (b ++ 0#8) 0xFF00)))
      ∧ (i / 2 = 5 → exec (.busWrite8 m (adr i) b) s
          = exec (.busWrite16 m (adr 10)
              (if i % 2 = 0 then merged c.cntH.value 0xFFFF (0#8 ++ b) 0x00FF
               else merged c.cntH.value 0xFFFF (b ++ 0#8) 0xFF00)) s)
      ∧ (i / 4 ≠ 2 → exec (.busWrite32 m (adr i) v) s
          = .next (withChan s k (full (full c (i / 4 * 2) h) (i / 4 * 2 + 1) high)))
      ∧ (i / 4 = 2 → exec (.busWrite32 m (adr i) v) s
          = exec (.busWrite16 m (adr 10) high) (withChan s k (full c 4 h)))
      ∧ ReadsChannel s c fun o w => readRow w m kind (adr o.val)

/-- 47_dma_gen2.md R491, R494, R496, R499, R508: a halfword written to a control register, by the CPU's rows
or by any master. Without a change of the enable bit it only stores the bits of its mask. A rising enable
bit with a forbidden value is refused; with any other it latches the addresses, the count and the mode, and
the channel starts (timing 0) or waits. A falling one makes a Starting or Paused channel Inactive, at the
end of an EEPROM stream it wrote, and an Active one stop at its next unit boundary. -/
def Obligations.DmaControlWrite : Prop :=
  ∀ (s : State) (m : Master) (k : Chan) (ctl : Half) (i : Instr), Open2By s m → Dma2Ok s →
    (i = .busWrite16 m (dmaBase k + 10) ctl
      ∨ (m = .cpu ∧ (i = cntHRow k .b2 (ctl.setWidth 32) ∨ (∃ x, ctl = 1#1 ++ x ∧ i = enableRow k x)
        ∨ ∃ x, ctl = 0#1 ++ x ∧ i = disableRow k x))) →
    let c := chan s k
    let h := ctl &&& cntHMask k
    (field c.cntH.value 15 1 = field h 15 1 →
      exec i s = .next (withChan s k { c with cntH.value := h }))
    ∧ (field c.cntH.value 15 1 = 0 → field h 15 1 = 1 → (∃ r, Refused499 k c h r) →
      ∃ r, Refused499 k c h r ∧ exec i s = .refused r)
    ∧ (field c.cntH.value 15 1 = 0 → field h 15 1 = 1 → (¬ ∃ r, Refused499 k c h r) →
      exec i s = .next (withChan s k
        (if field h 12 2 = 0 then started s.cfg.timing (latched k c h)
         else { latched k c h with state := .paused })))
    ∧ (field c.cntH.value 15 1 = 1 → field h 15 1 = 0 → c.state = .inactive →
      exec i s = .next (withChan s k { c with cntH.value := h }))
    ∧ (field c.cntH.value 15 1 = 1 → field h 15 1 = 0 → c.state = .active →
      exec i s = .next (withChan s k { c with cntH.value := h, stop := true }))
    ∧ (field c.cntH.value 15 1 = 1 → field h 15 1 = 0 → c.state = .starting ∨ c.state = .paused →
      let stopped := { c with cntH.value := h, state := .inactive, stop := false, eepromWrote := false }
      exec i s = .next (withChan (if c.eepromWrote then endStream s else s) k stopped))

/-- 41_bus.md R228, 47_dma_gen2.md R501, 46_dma_gen1.md R467: an event starts every Paused channel it
fires and leaves every other as it was. On generation 1 the vertical blank does nothing, the horizontal
one starts a Paused hblank transfer of a colour machine, and a FIFO event is refused. (That HBlank does
nothing on a machine that is not a colour one is log 22.) -/
def Obligations.TriggersStartWaitingChannels : Prop :=
  (∀ (s : State) (i : Instr), s.cfg.gen = .gen2 →
    i ∈ [Instr.triggerVblank, .triggerHblank, .triggerFifoa, .triggerFifob] →
    ∃ d : Channels, exec i s = .next (with2 s { s.g2 with dma := d })
      ∧ ∀ k, ((chan s k).state = .paused ∧ Fires i (chan s k) → d.get k = started s.cfg.timing (chan s k))
          ∧ (¬ ((chan s k).state = .paused ∧ Fires i (chan s k)) → d.get k = chan s k))
  ∧ ∀ s : State, s.cfg.gen = .gen1 →
    exec .triggerVblank s = .next s
    ∧ exec .triggerHblank s
        = .next (if s.cfg.cgb = true ∧ s.g1.vdma.state = .paused ∧ s.g1.vdma.mode = .hblank then
            with1 s { s.g1 with vdma.state := .active, vdma.counter := s.cfg.timing.vdmaBlock }
          else s)
    ∧ exec .triggerFifoa s = .refused .triggerGen1 ∧ exec .triggerFifob s = .refused .triggerGen1

/-- 47_dma_gen2.md R494, R497, R498, R502, R503, R510, R512: an immediate transfer from the first to the
second work RAM, of either unit width. The write that enables it is followed by the start delay and one
unit time per unit; then the block has been copied, one interrupt has been requested if `IRQ` is set and
none if not, the channel is Inactive with its enable bit clear, and nothing else has changed.
And one cycle of any activation (R502 to R504, R507, R508, R510, R511), of whatever mode: only the first
Active channel works, the Starting ones count down and every other is held. Its counter counts; where it
runs out one unit is moved, from the first work RAM or, with an invalid source, a free value, to the second
work RAM or to a FIFO address; the addresses move as their controls say; after the last unit the interrupt
is requested and the channel repeats or ends, and one that is to stop ends with its unit. -/
def Obligations.Gen2TransferCopiesBlock : Prop :=
  (∀ (s t : State) (k : Chan) (ctl : BitVec 15) (n : Nat), Open2 s → MemoryOk s → SizesOk s →
    Dma2Ok s → OnlyChannel s k → field (chan s k).cntH.value 15 1 = 0 →
    let h : Half := 1#1 ++ ctl
    let c := chan s k
    let w := if field h 10 1 = 1 then 4 else 2
    let src := sourceOf k c
    let dst := destOf k c
    field h 12 2 = 0 → (field h 5 2 = 0 ∨ field h 5 2 = 3) → field h 7 2 = 0 →
    n = unitsOf k c → src % w = 0 → dst % w = 0 →
    0x02000000 ≤ src → src + n * w ≤ 0x02040000 → 0x03000000 ≤ dst → dst + n * w ≤ 0x03008000 →
    exec (enableRow k ctl) s = .next t →
    ∃ m : Image,
      exec (.tick ((s.cfg.timing.gbaStart + n * s.cfg.timing.gbaUnit : Nat) : Int)) t
        = .next { s with
            outs := s.outs ++ (if field h 14 1 = 1 then [.interrupt k] else []),
            g2 := { s.g2 with
              iwram := m,
              dma := s.g2.dma.set k { c with
                cntH.value := h &&& cntHMask k &&& 0x7FFF, state := .inactive,
                src := BitVec.ofNat 28 (src + n * w), dst := BitVec.ofNat 28 (dst + n * w),
                remaining := 0, counter := 0, srcInvalid := false, fifo := false, stop := false,
                eepromWrote := false } } }
      ∧ StoredAt s.g2.iwram m (dst - 0x03000000) (n * w)
          fun j => s.g2.ewram.read (src - 0x02000000 + j))
  ∧ ∀ (s : State) (k : Chan), AtWork s k → MemoryOk s → SizesOk s → Dma2Ok s →
    let c := chan s k
    let w := unitOf c
    (c.counter ≠ 1 → ∃ d : Channels,
      exec (.tick 1) s = .next (with2 s { s.g2 with dma := d })
      ∧ Worked s k { c with counter := c.counter - 1 } d)
    ∧ (c.counter = 1 → c.eepromWrote = false → (c.srcInvalid = true ∨ c.src.toNat / 0x1000000 = 2) →
      (c.dst.toNat / 0x1000000 = 3 → ∃ (v : Word) (m : Image) (d : Channels),
        exec (.tick 1) s
          = .next { s with
              outs := s.outs ++ requestOf k c, draws := s.draws + (if c.srcInvalid then 1 else 0),
              g2 := { s.g2 with iwram := m, dma := d } }
        ∧ StoredAt s.g2.iwram m (aligned w c.dst.toNat % 0x8000) w.bytes (valueByte v)
        ∧ (c.srcInvalid = false → v = unitValue s c)
        ∧ Worked s k (afterNextUnit s.cfg.timing k c) d)
      ∧ (c.dst = 0x040000A0 ∨ c.dst = 0x040000A4 → ∃ (v : Word) (d : Channels),
        exec (.tick 1) s
          = .next { s with
              outs := s.outs ++ ioWrites w c.dst.toNat v ++ requestOf k c,
              draws := s.draws + (if c.srcInvalid then 1 else 0), g2 := { s.g2 with dma := d } }
        ∧ (c.srcInvalid = false → v = unitValue s c)
        ∧ Worked s k (afterNextUnit s.cfg.timing k c) d))

/-! ### Generation 2: storage -/

/-- 20_memory.md R114, 43_storage_battery_eeprom.md R323, R325, 44_storage_flash.md R380, 48_persistence.md
R565: a read of the storage window gives one byte in every lane: of battery RAM its byte, beyond it
0xFF; of a flash its byte in the selected bank, or its identifier at offsets 0 and 1 in chip-ID mode;
0xFF where there is neither. The read changes nothing. -/
def Obligations.StorageWindowReads : Prop :=
  ∀ (s : State) (a : BitVec 25) (w : Width), Open2 s → StorageOk s →
    let o := a.toNat % 0x10000
    (∀ m, s.g2.nvs2 = .batteryRam m → ∀ i ∈ windowReads a w,
      exec i s = .next (gave (inEveryLane w (if o < 0x8000 then m.read o else 0xFF)) s))
    ∧ (∀ f, s.g2.nvs2 = .flash f → ∀ i ∈ windowReads a w,
      exec i s = .next (gave (inEveryLane w
        (if f.idMode = true ∧ o = 0 then f.chipId.manufacturer
         else if f.idMode = true ∧ o = 1 then f.chipId.device
         else f.bytes.read (f.bank.toNat * 0x10000 + o))) s))
    ∧ (s.g2.nvs2 = .unresolved ∨ (∃ e, s.g2.nvs2 = .eeprom e) → ∀ i ∈ windowReads a w,
      exec i s = .next (gave (inEveryLane w 0xFF) s))
    ∧ (∀ f, s.g2.nvs2 = .flash f → f.idMode = true → ∀ hi : BitVec 9,
      exec (.flashIdManuf hi w) s = .next (gave (inEveryLane w f.chipId.manufacturer) s)
      ∧ exec (.flashIdDevice hi w) s = .next (gave (inEveryLane w f.chipId.device) s))

/-- 20_memory.md R114, 43_storage_battery_eeprom.md R324, R325, 48_persistence.md R563, R565: a CPU write
of the storage window stores one byte of battery RAM, beyond it nothing; an Eeprom ignores it. The first
write while no variant is resolved selects one: the first unlock byte a flash of the default size, in
which it is then the first step, any other a battery RAM, which takes the byte. -/
def Obligations.StorageWindowWrites : Prop :=
  ∀ (s : State) (a : BitVec 25) (w : Width) (v : Word), Open2 s → StorageOk s → MemoryOk s →
    let o := a.toNat % 0x10000
    let b := storedByte w a.toNat v
    (∀ m, s.g2.nvs2 = .batteryRam m → ∀ i ∈ windowWrites a w v,
      (0x8000 ≤ o → exec i s = .next s)
      ∧ (o < 0x8000 → ∃ x, exec i s = .next (withVariant s (.batteryRam x))
          ∧ StoredAt m x o 1 fun _ => b))
    ∧ (∀ e, s.g2.nvs2 = .eeprom e → ∀ i ∈ windowWrites a w v, exec i s = .next s)
    ∧ (∀ f, s.g2.nvs2 = .flash f → ∀ i ∈ windowWrites a w v,
      exec i s = exec (.flashUnrecognized (BitVec.ofNat 16 o) b) s)
    ∧ (s.g2.nvs2 = .unresolved → ∀ i ∈ windowWrites a w v,
      (o = 0x5555 → b = 0xAA →
        exec i s = .next (withVariant s (.flash
          { bytes := Image.filled (if s.cfg.sniffDual then 0x20000 else 0x10000) 0xFF,
            state := .starting, last := .none,
            chipId := if s.cfg.sniffDual then s.cfg.flashId128 else s.cfg.flashId64,
            bank := 0, idMode := false, busy := none })))
      ∧ (¬ (o = 0x5555 ∧ b = 0xAA) →
        ∃ x : Image, exec i s = .next { withVariant s (.batteryRam x) with draws := s.draws + 1 }
          ∧ x.size = 0x8000 ∧ (o < 0x8000 → x.read o = b)))

/-- 20_memory.md R106, 43_storage_battery_eeprom.md R329 to R332, R339, R340, R344, 48_persistence.md R566: the
EEPROM window. A write by a channel appends bit 0 of each halfword to the stream, two bits of four bytes and
one of a byte (a 0 from an odd lane), selecting a fresh Eeprom first where no variant is resolved; a read
takes one bit out, of four bytes two; a CPU write is refused. A unit of a DMA activation from the first work
RAM into the window feeds the bits of its value; with the unit that ends the activation the stream ends. -/
def Obligations.EepromWindowBits : Prop :=
  (∀ (s : State) (e : Eeprom) (a : BitVec 24), InWindow s (0x0D000000 + a.toNat) →
    (∀ (k : Chan) (w : Width) (v : Word), Open2By s (.chan k) →
      ∀ i ∈ windowFeeds k a w v,
      (s.g2.nvs2 = .eeprom e →
        exec i s = .next (withVariant (withChan s k { chan s k with eepromWrote := true })
          (.eeprom { e with pending := e.pending ++ bitsWritten w a.toNat v })))
      ∧ (s.g2.nvs2 = .unresolved →
        exec i s = .next (withVariant (withChan s k { chan s k with eepromWrote := true })
          (.eeprom { bytes := Image.filled 8192 0xFF, addrBits := .unknown,
                     pending := bitsWritten w a.toNat v, staged := [], ready := true, busy := none })))
      ∧ ((∃ m, s.g2.nvs2 = .batteryRam m) ∨ (∃ f, s.g2.nvs2 = .flash f) → exec i s = .next s))
    ∧ (s.g2.nvs2 = .eeprom e → ∀ (m : Master) (w : Width), Open2By s m →
      exec (.eepromDrainRead m a w) s
        = .next (gave (drainedBy w a.toNat e).1 (withVariant s (.eeprom (drainedBy w a.toNat e).2))))
    ∧ (s.g2.nvs2 = .eeprom e → Open2By s .cpu → ∀ (w : Width) (v : Word),
      exec (.eepromCpuWrite a w v) s = .refused .eepromCpuWrite))
  ∧ ∀ (s : State) (e : Eeprom) (k : Chan), AtWork s k → MemoryOk s → SizesOk s → Dma2Ok s →
      s.g2.nvs2 = .eeprom e →
      let c := chan s k
      c.counter = 1 → c.srcInvalid = false → c.src.toNat / 0x1000000 = 2 → InWindow s c.dst.toNat →
      let fed := withVariant s
        (.eeprom { e with pending := e.pending ++ bitsWritten (unitOf c) c.dst.toNat (unitValue s c) })
      let after := fun (u : State) (wrote : Bool) => ∃ d : Channels,
        exec (.tick 1) s
          = .next { u with outs := u.outs ++ requestOf k c, g2 := { u.g2 with dma := d } }
        ∧ Worked s k { afterNextUnit s.cfg.timing k c with eepromWrote := wrote } d
      (Ends c → after (endStream fed) false) ∧ (¬ Ends c → after fed true)

/-- 43_storage_battery_eeprom.md R326, R327, R332 to R338, R346: a whole stream into an Eeprom with no bits
pending, with or without its stop bit. A read request stages the drawn preamble and the 64 bits of the
word (all ones beyond the words there are); a write puts the word in flight; either settles an unknown
address length. A stream of the other length, or one that comes while a write is in flight, is dropped, and
so is a malformed one (R345). That a row of the stream format, or a frame of stream bits, is a whole stream
and its boundary is the model's choice (log 7), and that a stream whose read/write bit is not the one of its
length settles an unknown address length and does nothing else is the model's reading (log 20). -/
def Obligations.EepromStreams : Prop :=
  (∀ (s : State) (p : Pending) (rest : List Pending) (e : Eeprom) (l : List Bool),
    s.cfg.gen = .gen2 → constructionRefusal s.cfg = none → s.host.now ≤ p.host.now →
    s.pending = p :: rest → p.frame = streamFrame l → s.g2.nvs2 = .eeprom e → e.pending = [] →
    Malformed l →
    step s = .next { s with pending := rest, host := p.host, loadable := false })
  ∧ (∀ (s : State) (p : Pending) (rest : List Pending) (e : Eeprom) (l : List Bool),
    s.cfg.gen = .gen2 → constructionRefusal s.cfg = none → s.host.now ≤ p.host.now → MemoryOk s → StorageOk s →
    s.pending = p :: rest → p.frame = streamFrame l → s.g2.nvs2 = .eeprom e → e.pending = [] →
    Unfit l →
    let idle := fun t : State => { t with pending := rest, host := p.host, loadable := false }
    let bits : AddrBits := if l.length ∈ [8, 9, 72, 73] then .six else .fourteen
    (e.addrBits ≠ .unknown → step s = .next (idle s))
    ∧ (e.addrBits = .unknown → ∃ m : Image, m.size = (if bits = .six then 512 else 8192)
      ∧ (∀ j < m.size, m.read j = e.bytes.read j)
      ∧ step s = .next (idle (withVariant s (.eeprom { e with addrBits := bits, bytes := m })))))
  ∧ ∀ (s : State) (e : Eeprom) (six : Bool) (x : BitVec 14) (stop : Option Bool) (d : BitVec 64),
    s.cfg.gen = .gen2 → MemoryOk s → StorageOk s → s.g2.nvs2 = .eeprom e → e.pending = [] →
    let bits : AddrBits := if six then .six else .fourteen
    let words := if six then 64 else 1024
    let word := if six then x.toNat % 64 else x.toNat
    let readReq : Instr := if six then .eepromRead6 (x.setWidth 6) stop else .eepromRead14 x stop
    let write : Instr := if six then .eepromWrite6 (x.setWidth 6) d stop else .eepromWrite14 x d stop
    let settled := fun m : Image =>
      m.size = 8 * words ∧ ∀ j < 8 * words, m.read j = e.bytes.read j
    (e.addrBits ≠ .unknown ∧ e.addrBits ≠ bits ∨ e.addrBits = bits ∧ e.busy.isSome = true →
      exec readReq s = .next s ∧ exec write s = .next s)
    ∧ (e.addrBits = .unknown ∨ e.addrBits = bits → e.busy = none →
      (∃ (m : Image) (pre : List Bool), settled m ∧ pre.length = s.cfg.preambleBits
        ∧ exec readReq s = .next { withVariant s (.eeprom { e with
            addrBits := bits, bytes := m,
            staged := pre ++ (List.range 64).map fun j =>
              if word < words then (e.bytes.read (8 * word + j / 8)).getLsbD (7 - j % 8) else true })
          with draws := s.draws + s.cfg.preambleBits })
      ∧ ∃ m : Image, settled m
        ∧ exec write s = .next (withVariant s (.eeprom { e with
            addrBits := bits, bytes := m, staged := [], ready := false,
            busy := some { remaining := s.cfg.timing.eepromWrite, word := word, data := d } })))

/-- 44_storage_flash.md R373 to R377, R382, R387: the flash's command machine, each command from the state
that takes it. Any byte that the state does not take goes back to NotStarted and forgets the last command;
while a program or an erase is in flight every write is ignored. -/
def Obligations.FlashCommands : Prop :=
  ∀ (s : State) (f : Flash) (o : Half) (v : Byte), Open2 s → StorageOk s → s.g2.nvs2 = .flash f →
    let t := s.cfg.timing
    let becomes := fun (i : Instr) (g : Flash) => exec i s = .next (withVariant s (.flash g))
    (∀ p ∈ [(Instr.flashUnlock1, 0x5555, 0xAA), (.flashUnlock2, 0x2AAA, 0x55), (.flashIdEnter, 0x5555, 0x90),
            (.flashIdExit, 0x5555, 0xF0), (.flashErase, 0x5555, 0x80), (.flashEraseChip, 0x5555, 0x10),
            (.flashEraseSector o, o, 0x30), (.flashProgram, 0x5555, 0xA0), (.flashBank, 0x5555, 0xB0),
            (.flashProgramData o v, o, v), (.flashBankData v, 0, v)],
      exec p.1 s = exec (.flashUnrecognized p.2.1 p.2.2) s)
    ∧ (f.busy.isSome = true →
      ∀ i ∈ [Instr.flashUnlock1, .flashUnlock2, .flashIdEnter, .flashIdExit, .flashErase,
             .flashEraseChip, .flashEraseSector o, .flashProgram, .flashBank, .flashProgramData o v,
             .flashBankData v, .flashUnrecognized o v], exec i s = .next s)
    ∧ (f.busy = none →
      (f.state = .notStarted → becomes .flashUnlock1 { f with state := .starting })
      ∧ (f.state = .starting → becomes .flashUnlock2 { f with state := .ready })
      ∧ (f.state = .ready →
        let ended := { f with state := .notStarted }
        becomes .flashIdEnter { ended with idMode := true, last := .idEnter }
        ∧ becomes .flashIdExit { ended with idMode := false, last := .idExit }
        ∧ becomes .flashErase { ended with last := .erase }
        ∧ (f.last = .erase → becomes .flashEraseChip { ended with
            last := .eraseChip, busy := some { remaining := t.flashEraseChip, action := .eraseChip } })
        ∧ (f.last = .erase → becomes (.flashEraseSector o) { ended with
            last := .eraseSector,
            busy := some { remaining := t.flashEraseSector,
                           action := .eraseSector (f.bank.toNat * 0x10000 + o.toNat / 0x1000 * 0x1000) } })
        ∧ becomes .flashProgram { f with state := .command, last := .program }
        ∧ (f.bytes.size = 0x20000 → becomes .flashBank { f with state := .command, last := .bankSwitch }))
      ∧ (f.state = .command → f.last = .program →
        becomes (.flashProgramData o v) { f with
          state := .notStarted,
          busy := some { remaining := t.flashProgram,
                         action := .program (f.bank.toNat * 0x10000 + o.toNat) v } })
      ∧ (f.state = .command → f.last = .bankSwitch →
        becomes (.flashBankData v) { f with state := .notStarted, bank := v.setWidth 1 })
      ∧ (¬ Recognized f o v →
        becomes (.flashUnrecognized o v) { f with state := .notStarted, last := .none }))

/-- 43_storage_battery_eeprom.md R342, R343, 44_storage_flash.md R378, R379, R388: with no DMA under way, a
program, an erase or an EEPROM write put in flight with `n + 1` cycles to go has changed no byte after
`n` of them or fewer, and after `n + 1` has stored exactly what it says and is over. -/
def Obligations.DeferredStorageCompletes : Prop :=
  ∀ (s : State) (n j : Nat), s.cfg.gen = .gen2 → MemoryOk s → StorageOk s →
    (∀ k, (chan s k).state = .inactive ∨ (chan s k).state = .paused) →
    (∀ (f : Flash) (a : FlashAction), s.g2.nvs2 = .flash f →
      f.busy = some { remaining := n + 1, action := a } →
      (j ≤ n → exec (.tick j) s = .next (withVariant s (.flash
        { f with busy := some { remaining := (n : Int) + 1 - j, action := a } })))
      ∧ ∃ m : Image, exec (.tick (n + 1)) s
            = .next (withVariant s (.flash { f with bytes := m, busy := none }))
          ∧ match a with
            | .program p v => (p < f.bytes.size → m.read p = v) ∧ ∀ x, x ≠ p → m.read x = f.bytes.read x
            | .eraseChip => ∀ x, m.read x = 0xFF
            | .eraseSector p => ∀ x, m.read x
                = if p ≤ x ∧ x < p + 0x1000 then 0xFF else f.bytes.read x)
    ∧ ∀ (e : Eeprom) (word : Nat) (d : BitVec 64), s.g2.nvs2 = .eeprom e →
      e.busy = some { remaining := n + 1, word := word, data := d } →
      (j ≤ n → exec (.tick j) s = .next (withVariant s (.eeprom
        { e with busy := some { remaining := (n : Int) + 1 - j, word := word, data := d } })))
      ∧ ∃ m : Image, exec (.tick (n + 1)) s
            = .next (withVariant s (.eeprom { e with bytes := m, ready := true, busy := none }))
          ∧ if word < e.bytes.size / 8 then
              StoredAt e.bytes m (8 * word) 8 fun i => BitVec.ofNat 8 (d.toNat / 256 ^ (7 - i))
            else m = e.bytes

/-! ### Save files -/

/-- 48_persistence.md R551, R554 to R556, R559, R569: `load` on generation 1, before any other call. For a
cartridge with a battery and no RAM the RAM part has size 0, so that the empty file is taken, and nothing
but the clock is stored: that is the model's reading (log 19), where R551's corner case names a file of 0x30
bytes or none. (That the host's failure to read a file of a cartridge without a battery is refused as
`NoBattery` is the model's; nothing is stated of it.) The eight bytes of the timestamp are read as a signed
number, an instant before the epoch too: the model's choice (log 27). -/
def Obligations.Gen1Load : Prop :=
  ∀ (s : State) (l : List Byte), s.cfg.gen = .gen1 → s.loadable = true →
    let b := ramPart s
    (s.cfg.cart.hasBattery = false →
      exec (.loadGen1 .absent) s = .next s ∧ exec (.loadGen1 (.bytes l)) s = .refused .noBattery)
    ∧ (s.cfg.cart.hasBattery = true →
      (∃ (m : Image) (r : Rtc), m.size = b ∧ FreshClock s r
        ∧ exec (.loadGen1 .absent) s
          = .next { withRam1 (with1 s { s.g1 with rtc := r }) m with draws := s.draws + 1 })
      ∧ exec (.loadGen1 .unreadable) s = .fault .storageIoError
      ∧ (l.length = b → ∃ (m : Image) (r : Rtc), m.toList = l ∧ FreshClock s r
        ∧ exec (.loadGen1 (.bytes l)) s = .next (withRam1 (with1 s { s.g1 with rtc := r }) m))
      ∧ (l.length ≠ b → ¬ (s.cfg.cart.hasRtc = true ∧ l.length = b + 0x30) →
        exec (.loadGen1 (.bytes l)) s = .fault .loadSizeError)
      ∧ (s.cfg.cart.hasRtc = true → l.length = b + 0x30 → ¬ TrailerInRange l b →
        exec (.loadGen1 (.bytes l)) s = .refused .rtcTrailer)
      ∧ (s.cfg.cart.hasRtc = true → l.length = b + 0x30 → TrailerInRange l b →
        ∃ (m : Image) (r : Rtc), m.toList = l.take b
          ∧ exec (.loadGen1 (.bytes l)) s = .next (withRam1 (with1 s { s.g1 with rtc := r }) m)
          ∧ r.halted = decide (fileField l (b + 16) 4 / 0x40 % 2 = 1)
          ∧ r.carry = decide (fileField l (b + 16) 4 / 0x80 % 2 = 1)
          ∧ r.haltedInstant = s.host.now
          ∧ r.latched = { s := fileField l (b + 0x14) 4, m := fileField l (b + 0x18) 4,
                          h := fileField l (b + 0x1C) 4, d := trailerDays l (b + 0x14) }
          ∧ r.reference
              = (if r.halted then s.host.now else min (fileInstant l (b + 0x28)) s.host.now)
                - (fileField l b 4 + 60 * fileField l (b + 4) 4 + 3600 * fileField l (b + 8) 4
                    + 86400 * trailerDays l b : Nat)))

/-- 48_persistence.md R552, R554, R555, R557, R569, 45_rtc.md R415: the file `serialize` gives on
generation 1, byte for byte, and that it changes nothing but the clock's normalisation (and the value
returned). That a cartridge with a battery and no RAM gives a file, empty or the trailer alone, is the
model's reading (log 19), and that a `serialize` which gives no file cannot fail is the model's too
(log 18), as it is that the timestamp holds the low 64 bits of the instant in two's complement (log 27). -/
def Obligations.Gen1Serialize : Prop :=
  ∀ s : State, s.cfg.gen = .gen1 → MemoryOk s → SizesOk s → RtcOk s →
    (s.cfg.cart.hasBattery = false → ∀ w : Bool,
      exec (.serializeGen1 w) s = .next { s with result := .file none })
    ∧ (s.cfg.cart.hasBattery = true → exec (.serializeGen1 false) s = .fault .storageIoError)
    ∧ (s.cfg.cart.hasBattery = true → ∃ (m : Image) (r : Rtc),
      exec (.serializeGen1 true) s
        = .next { with1 s { s.g1 with rtc := r } with result := .file (some m) }
      ∧ (∀ x < ramPart s, m.read x = ramByte s x)
      ∧ (s.cfg.cart.hasRtc = false → r = s.g1.rtc ∧ m.size = ramPart s)
      ∧ (s.cfg.cart.hasRtc = true →
        let e := elapsedOf s
        let l := s.g1.rtc.latched
        let days := (unit e 86400 512).toNat
        m.size = ramPart s + 0x30
        ∧ r.reference = normalizedReference s
        ∧ r.halted = s.g1.rtc.halted ∧ r.haltedInstant = s.g1.rtc.haltedInstant ∧ r.latched = l
        ∧ r.carry = (s.g1.rtc.carry || decide (512 ≤ e / 86400))
        ∧ elapsedOf (with1 s { s.g1 with rtc := r }) < 86400 * 512
        ∧ (∀ i < 8, ((m.read (ramPart s + 0x28 + i)).toNat : Int) = s.host.now / 256 ^ i % 256)
        ∧ ∀ j < 10,
            (∀ i, 1 ≤ i → i < 4 → m.read (ramPart s + 4 * j + i) = 0)
            ∧ some (m.read (ramPart s + 4 * j)).toNat
              = [(unit e 1 60).toNat, (unit e 60 60).toNat, (unit e 3600 24).toNat, days % 256,
                 flagsByte days r.halted r.carry, l.s, l.m, l.h, l.d % 256,
                 flagsByte l.d r.halted r.carry][j]?))

/-- 48_persistence.md R560 to R564, R567, R569: `load` and `serialize` on generation 2. The override, where
there is one, and else the size of the file chooses the variant; with neither it stays open. What is
given back is the stored bytes. That a serialize which gives no file cannot fail, whatever the host, is the
model's choice (log 18). -/
def Obligations.Gen2LoadAndSerialize : Prop :=
  ∀ (s : State) (l : List Byte), s.cfg.gen = .gen2 →
    (s.loadable = true →
      exec (.loadGen2 .unreadable) s = .fault .storageIoError
      ∧ (s.cfg.saveOverride = none →
        exec (.loadGen2 .absent) s = .next (withVariant s .unresolved))
      ∧ (∀ v, s.cfg.saveOverride = some v → ∃ m : Image, m.size = fileSize v
        ∧ (v ≠ .batteryRam → ∀ x, m.read x = 0xFF)
        ∧ exec (.loadGen2 .absent) s
            = .next { withVariant s (device s.cfg v m) with draws := s.draws + 1 })
      ∧ (∀ v, s.cfg.saveOverride = none ∨ s.cfg.saveOverride = some v → l.length = fileSize v →
        ∃ m : Image, m.toList = l
          ∧ exec (.loadGen2 (.bytes l)) s = .next (withVariant s (device s.cfg v m)))
      ∧ ((∀ v, s.cfg.saveOverride = none ∨ s.cfg.saveOverride = some v → l.length ≠ fileSize v) →
        exec (.loadGen2 (.bytes l)) s = .fault .loadSizeError))
    ∧ (∀ w : Bool,
      s.g2.nvs2 = .unresolved ∨ (∃ e, s.g2.nvs2 = .eeprom e ∧ e.addrBits = .unknown) →
      exec (.serializeGen2 w) s = .next { s with result := .file none })
    ∧ ∀ m : Image,
      s.g2.nvs2 = .batteryRam m ∨ (∃ e, s.g2.nvs2 = .eeprom e ∧ e.addrBits ≠ .unknown ∧ m = e.bytes)
        ∨ (∃ f, s.g2.nvs2 = .flash f ∧ m = f.bytes) →
      exec (.serializeGen2 true) s = .next { s with result := .file (some m) }
      ∧ exec (.serializeGen2 false) s = .fault .storageIoError

/-- 48_persistence.md R558, R568: save and load again. On generation 2 a block that loads the file another
gave holds the same variant with the same bytes, with an override too where the file is of its size (R562;
the row `SERIALIZE_GEN1` runs the machine's own generation, which is the model's choice, log 6); on
generation 1 the same cartridge RAM, and, with a
clock, the same snapshot, the same flags, and the same time of day and day count, moved on by the time
that has passed where the clock runs. Of a running clock this is said of the instants that the eight bytes
of the timestamp hold as a signed number (log 27). -/
def Obligations.SavedFileLoadsBack : Prop :=
  ∀ (s t u : State) (m : Image),
    exec (.serializeGen1 true) s = .next t → t.result = .file (some m) →
    u.cfg = s.cfg → s.host.now ≤ u.host.now → u.loadable = true → MemoryOk s → SizesOk s → SizesOk u →
    (s.cfg.gen = .gen2 → StorageOk s → (∀ v, s.cfg.saveOverride = some v → m.size = fileSize v) →
      ∃ n, exec (.loadGen2 (.bytes m.toList)) u = .next (withVariant u n) ∧ Holds s.cfg s.g2.nvs2 n)
    ∧ (s.cfg.gen = .gen1 → RtcOk s →
      ∃ g, exec (.loadGen1 (.bytes m.toList)) u = .next (with1 u g)
        ∧ (∀ x, ramByte (with1 u g) x = ramByte s x)
        ∧ (s.cfg.cart.hasRtc = true →
          let on : Int := if s.g1.rtc.halted then 0 else u.host.now - s.host.now
          ((s.g1.rtc.halted = false → -2 ^ 63 ≤ s.host.now ∧ s.host.now < 2 ^ 63) →
            ∀ p ∈ [((1, 60) : Int × Int), (60, 60), (3600, 24), (86400, 512)],
              unit (elapsedOf (with1 u g) - on) p.1 p.2 = unit (elapsedOf s) p.1 p.2)
          ∧ g.rtc.latched = s.g1.rtc.latched ∧ g.rtc.halted = s.g1.rtc.halted
          ∧ g.rtc.carry = t.g1.rtc.carry))
end

