-- ==== Sys2Proof/Laws/Outcome.lean ====
section
/-! SUPPORT. What `bindR` does, said once, so that no proof unfolds it. -/
namespace Sys2Proof.Machine

@[simp] theorem bindR_next {α β : Type} (a : α) (f : α → Res β) : bindR (.next a) f = f a := rfl

@[simp] theorem bindR_fault {α β : Type} (r : Fault) (f : α → Res β) :
    bindR (.fault r) f = .fault r := rfl

@[simp] theorem bindR_refused {α β : Type} (r : Refusal) (f : α → Res β) :
    bindR (.refused r) f = .refused r := rfl

theorem bindR_eq_next {α β : Type} {x : Res α} {f : α → Res β} {b : β} :
    bindR x f = .next b ↔ ∃ a, x = .next a ∧ f a = .next b := by
  cases x <;> simp

theorem bindR_eq_fault {α β : Type} {x : Res α} {f : α → Res β} {r : Fault} :
    bindR x f = .fault r ↔ x = .fault r ∨ ∃ a, x = .next a ∧ f a = .fault r := by
  cases x <;> simp

theorem bindR_eq_refused {α β : Type} {x : Res α} {f : α → Res β} {r : Refusal} :
    bindR x f = .refused r ↔ x = .refused r ∨ ∃ a, x = .next a ∧ f a = .refused r := by
  cases x <;> simp

theorem bindR_assoc {α β γ : Type} (x : Res α) (f : α → Res β) (g : β → Res γ) :
    bindR (bindR x f) g = bindR x fun a => bindR (f a) g := by
  cases x <;> rfl

theorem bindR_pure {α : Type} (x : Res α) : bindR x .next = x := by cases x <;> rfl

end Sys2Proof.Machine
end

