-- ==== Sys2Proof/Laws/State.lean ====
section
/-! SUPPORT. One lemma for each field after each named update of the state, so that no proof unfolds a
record update. -/
namespace Sys2Proof.Machine

/-! ### setBank -/

@[simp] theorem setBank_cfg (b : BankState) (s : State) : (setBank b s).cfg = s.cfg := rfl
@[simp] theorem setBank_host (b : BankState) (s : State) : (setBank b s).host = s.host := rfl
@[simp] theorem setBank_pending (b : BankState) (s : State) : (setBank b s).pending = s.pending := rfl
@[simp] theorem setBank_loadable (b : BankState) (s : State) : (setBank b s).loadable = s.loadable := rfl
@[simp] theorem setBank_result (b : BankState) (s : State) : (setBank b s).result = s.result := rfl
@[simp] theorem setBank_outs (b : BankState) (s : State) : (setBank b s).outs = s.outs := rfl
@[simp] theorem setBank_draws (b : BankState) (s : State) : (setBank b s).draws = s.draws := rfl
@[simp] theorem setBank_g1_bootEnabled (b : BankState) (s : State) :
  (setBank b s).g1.bootEnabled = s.g1.bootEnabled := rfl
@[simp] theorem setBank_g1_vram (b : BankState) (s : State) :
  (setBank b s).g1.vram = s.g1.vram := rfl
@[simp] theorem setBank_g1_vbk (b : BankState) (s : State) :
  (setBank b s).g1.vbk = s.g1.vbk := rfl
@[simp] theorem setBank_g1_wram (b : BankState) (s : State) :
  (setBank b s).g1.wram = s.g1.wram := rfl
@[simp] theorem setBank_g1_svbk (b : BankState) (s : State) :
  (setBank b s).g1.svbk = s.g1.svbk := rfl
@[simp] theorem setBank_g1_oam (b : BankState) (s : State) :
  (setBank b s).g1.oam = s.g1.oam := rfl
@[simp] theorem setBank_g1_hram (b : BankState) (s : State) :
  (setBank b s).g1.hram = s.g1.hram := rfl
@[simp] theorem setBank_g1_blocked (b : BankState) (s : State) :
  (setBank b s).g1.blocked = s.g1.blocked := rfl
@[simp] theorem setBank_g1_dmaLastByte (b : BankState) (s : State) :
  (setBank b s).g1.dmaLastByte = s.g1.dmaLastByte := rfl
@[simp] theorem setBank_g1_oamDma (b : BankState) (s : State) :
  (setBank b s).g1.oamDma = s.g1.oamDma := rfl
@[simp] theorem setBank_g1_vdma (b : BankState) (s : State) :
  (setBank b s).g1.vdma = s.g1.vdma := rfl
@[simp] theorem setBank_g1_bank (b : BankState) (s : State) :
  (setBank b s).g1.bank = b := rfl
@[simp] theorem setBank_g1_rumble (b : BankState) (s : State) :
  (setBank b s).g1.rumble = s.g1.rumble := rfl
@[simp] theorem setBank_g1_rtc (b : BankState) (s : State) :
  (setBank b s).g1.rtc = s.g1.rtc := rfl
@[simp] theorem setBank_g1_nvs1 (b : BankState) (s : State) :
  (setBank b s).g1.nvs1 = s.g1.nvs1 := rfl
@[simp] theorem setBank_g2 (b : BankState) (s : State) : (setBank b s).g2 = s.g2 := rfl

/-! ### setRtc -/

@[simp] theorem setRtc_cfg (r : Rtc) (s : State) : (setRtc r s).cfg = s.cfg := rfl
@[simp] theorem setRtc_host (r : Rtc) (s : State) : (setRtc r s).host = s.host := rfl
@[simp] theorem setRtc_pending (r : Rtc) (s : State) : (setRtc r s).pending = s.pending := rfl
@[simp] theorem setRtc_loadable (r : Rtc) (s : State) : (setRtc r s).loadable = s.loadable := rfl
@[simp] theorem setRtc_result (r : Rtc) (s : State) : (setRtc r s).result = s.result := rfl
@[simp] theorem setRtc_outs (r : Rtc) (s : State) : (setRtc r s).outs = s.outs := rfl
@[simp] theorem setRtc_draws (r : Rtc) (s : State) : (setRtc r s).draws = s.draws := rfl
@[simp] theorem setRtc_g1_bootEnabled (r : Rtc) (s : State) :
  (setRtc r s).g1.bootEnabled = s.g1.bootEnabled := rfl
@[simp] theorem setRtc_g1_vram (r : Rtc) (s : State) :
  (setRtc r s).g1.vram = s.g1.vram := rfl
@[simp] theorem setRtc_g1_vbk (r : Rtc) (s : State) :
  (setRtc r s).g1.vbk = s.g1.vbk := rfl
@[simp] theorem setRtc_g1_wram (r : Rtc) (s : State) :
  (setRtc r s).g1.wram = s.g1.wram := rfl
@[simp] theorem setRtc_g1_svbk (r : Rtc) (s : State) :
  (setRtc r s).g1.svbk = s.g1.svbk := rfl
@[simp] theorem setRtc_g1_oam (r : Rtc) (s : State) :
  (setRtc r s).g1.oam = s.g1.oam := rfl
@[simp] theorem setRtc_g1_hram (r : Rtc) (s : State) :
  (setRtc r s).g1.hram = s.g1.hram := rfl
@[simp] theorem setRtc_g1_blocked (r : Rtc) (s : State) :
  (setRtc r s).g1.blocked = s.g1.blocked := rfl
@[simp] theorem setRtc_g1_dmaLastByte (r : Rtc) (s : State) :
  (setRtc r s).g1.dmaLastByte = s.g1.dmaLastByte := rfl
@[simp] theorem setRtc_g1_oamDma (r : Rtc) (s : State) :
  (setRtc r s).g1.oamDma = s.g1.oamDma := rfl
@[simp] theorem setRtc_g1_vdma (r : Rtc) (s : State) :
  (setRtc r s).g1.vdma = s.g1.vdma := rfl
@[simp] theorem setRtc_g1_bank (r : Rtc) (s : State) :
  (setRtc r s).g1.bank = s.g1.bank := rfl
@[simp] theorem setRtc_g1_rumble (r : Rtc) (s : State) :
  (setRtc r s).g1.rumble = s.g1.rumble := rfl
@[simp] theorem setRtc_g1_rtc (r : Rtc) (s : State) :
  (setRtc r s).g1.rtc = r := rfl
@[simp] theorem setRtc_g1_nvs1 (r : Rtc) (s : State) :
  (setRtc r s).g1.nvs1 = s.g1.nvs1 := rfl
@[simp] theorem setRtc_g2 (r : Rtc) (s : State) : (setRtc r s).g2 = s.g2 := rfl

/-! ### setOamDma -/

@[simp] theorem setOamDma_cfg (d : OamDma) (s : State) : (setOamDma d s).cfg = s.cfg := rfl
@[simp] theorem setOamDma_host (d : OamDma) (s : State) : (setOamDma d s).host = s.host := rfl
@[simp] theorem setOamDma_pending (d : OamDma) (s : State) : (setOamDma d s).pending = s.pending := rfl
@[simp] theorem setOamDma_loadable (d : OamDma) (s : State) : (setOamDma d s).loadable = s.loadable := rfl
@[simp] theorem setOamDma_result (d : OamDma) (s : State) : (setOamDma d s).result = s.result := rfl
@[simp] theorem setOamDma_outs (d : OamDma) (s : State) : (setOamDma d s).outs = s.outs := rfl
@[simp] theorem setOamDma_draws (d : OamDma) (s : State) : (setOamDma d s).draws = s.draws := rfl
@[simp] theorem setOamDma_g1_bootEnabled (d : OamDma) (s : State) :
  (setOamDma d s).g1.bootEnabled = s.g1.bootEnabled := rfl
@[simp] theorem setOamDma_g1_vram (d : OamDma) (s : State) :
  (setOamDma d s).g1.vram = s.g1.vram := rfl
@[simp] theorem setOamDma_g1_vbk (d : OamDma) (s : State) :
  (setOamDma d s).g1.vbk = s.g1.vbk := rfl
@[simp] theorem setOamDma_g1_wram (d : OamDma) (s : State) :
  (setOamDma d s).g1.wram = s.g1.wram := rfl
@[simp] theorem setOamDma_g1_svbk (d : OamDma) (s : State) :
  (setOamDma d s).g1.svbk = s.g1.svbk := rfl
@[simp] theorem setOamDma_g1_oam (d : OamDma) (s : State) :
  (setOamDma d s).g1.oam = s.g1.oam := rfl
@[simp] theorem setOamDma_g1_hram (d : OamDma) (s : State) :
  (setOamDma d s).g1.hram = s.g1.hram := rfl
@[simp] theorem setOamDma_g1_blocked (d : OamDma) (s : State) :
  (setOamDma d s).g1.blocked = s.g1.blocked := rfl
@[simp] theorem setOamDma_g1_dmaLastByte (d : OamDma) (s : State) :
  (setOamDma d s).g1.dmaLastByte = s.g1.dmaLastByte := rfl
@[simp] theorem setOamDma_g1_oamDma (d : OamDma) (s : State) :
  (setOamDma d s).g1.oamDma = d := rfl
@[simp] theorem setOamDma_g1_vdma (d : OamDma) (s : State) :
  (setOamDma d s).g1.vdma = s.g1.vdma := rfl
@[simp] theorem setOamDma_g1_bank (d : OamDma) (s : State) :
  (setOamDma d s).g1.bank = s.g1.bank := rfl
@[simp] theorem setOamDma_g1_rumble (d : OamDma) (s : State) :
  (setOamDma d s).g1.rumble = s.g1.rumble := rfl
@[simp] theorem setOamDma_g1_rtc (d : OamDma) (s : State) :
  (setOamDma d s).g1.rtc = s.g1.rtc := rfl
@[simp] theorem setOamDma_g1_nvs1 (d : OamDma) (s : State) :
  (setOamDma d s).g1.nvs1 = s.g1.nvs1 := rfl
@[simp] theorem setOamDma_g2 (d : OamDma) (s : State) : (setOamDma d s).g2 = s.g2 := rfl

/-! ### setVdma -/

@[simp] theorem setVdma_cfg (d : Vdma) (s : State) : (setVdma d s).cfg = s.cfg := rfl
@[simp] theorem setVdma_host (d : Vdma) (s : State) : (setVdma d s).host = s.host := rfl
@[simp] theorem setVdma_pending (d : Vdma) (s : State) : (setVdma d s).pending = s.pending := rfl
@[simp] theorem setVdma_loadable (d : Vdma) (s : State) : (setVdma d s).loadable = s.loadable := rfl
@[simp] theorem setVdma_result (d : Vdma) (s : State) : (setVdma d s).result = s.result := rfl
@[simp] theorem setVdma_outs (d : Vdma) (s : State) : (setVdma d s).outs = s.outs := rfl
@[simp] theorem setVdma_draws (d : Vdma) (s : State) : (setVdma d s).draws = s.draws := rfl
@[simp] theorem setVdma_g1_bootEnabled (d : Vdma) (s : State) :
  (setVdma d s).g1.bootEnabled = s.g1.bootEnabled := rfl
@[simp] theorem setVdma_g1_vram (d : Vdma) (s : State) :
  (setVdma d s).g1.vram = s.g1.vram := rfl
@[simp] theorem setVdma_g1_vbk (d : Vdma) (s : State) :
  (setVdma d s).g1.vbk = s.g1.vbk := rfl
@[simp] theorem setVdma_g1_wram (d : Vdma) (s : State) :
  (setVdma d s).g1.wram = s.g1.wram := rfl
@[simp] theorem setVdma_g1_svbk (d : Vdma) (s : State) :
  (setVdma d s).g1.svbk = s.g1.svbk := rfl
@[simp] theorem setVdma_g1_oam (d : Vdma) (s : State) :
  (setVdma d s).g1.oam = s.g1.oam := rfl
@[simp] theorem setVdma_g1_hram (d : Vdma) (s : State) :
  (setVdma d s).g1.hram = s.g1.hram := rfl
@[simp] theorem setVdma_g1_blocked (d : Vdma) (s : State) :
  (setVdma d s).g1.blocked = s.g1.blocked := rfl
@[simp] theorem setVdma_g1_dmaLastByte (d : Vdma) (s : State) :
  (setVdma d s).g1.dmaLastByte = s.g1.dmaLastByte := rfl
@[simp] theorem setVdma_g1_oamDma (d : Vdma) (s : State) :
  (setVdma d s).g1.oamDma = s.g1.oamDma := rfl
@[simp] theorem setVdma_g1_vdma (d : Vdma) (s : State) :
  (setVdma d s).g1.vdma = d := rfl
@[simp] theorem setVdma_g1_bank (d : Vdma) (s : State) :
  (setVdma d s).g1.bank = s.g1.bank := rfl
@[simp] theorem setVdma_g1_rumble (d : Vdma) (s : State) :
  (setVdma d s).g1.rumble = s.g1.rumble := rfl
@[simp] theorem setVdma_g1_rtc (d : Vdma) (s : State) :
  (setVdma d s).g1.rtc = s.g1.rtc := rfl
@[simp] theorem setVdma_g1_nvs1 (d : Vdma) (s : State) :
  (setVdma d s).g1.nvs1 = s.g1.nvs1 := rfl
@[simp] theorem setVdma_g2 (d : Vdma) (s : State) : (setVdma d s).g2 = s.g2 := rfl

/-! ### setNvs2 -/

@[simp] theorem setNvs2_cfg (n : Nvs2) (s : State) : (setNvs2 n s).cfg = s.cfg := rfl
@[simp] theorem setNvs2_host (n : Nvs2) (s : State) : (setNvs2 n s).host = s.host := rfl
@[simp] theorem setNvs2_pending (n : Nvs2) (s : State) : (setNvs2 n s).pending = s.pending := rfl
@[simp] theorem setNvs2_loadable (n : Nvs2) (s : State) : (setNvs2 n s).loadable = s.loadable := rfl
@[simp] theorem setNvs2_result (n : Nvs2) (s : State) : (setNvs2 n s).result = s.result := rfl
@[simp] theorem setNvs2_outs (n : Nvs2) (s : State) : (setNvs2 n s).outs = s.outs := rfl
@[simp] theorem setNvs2_draws (n : Nvs2) (s : State) : (setNvs2 n s).draws = s.draws := rfl
@[simp] theorem setNvs2_g1 (n : Nvs2) (s : State) : (setNvs2 n s).g1 = s.g1 := rfl
@[simp] theorem setNvs2_g2_biosLatch (n : Nvs2) (s : State) :
  (setNvs2 n s).g2.biosLatch = s.g2.biosLatch := rfl
@[simp] theorem setNvs2_g2_ewram (n : Nvs2) (s : State) :
  (setNvs2 n s).g2.ewram = s.g2.ewram := rfl
@[simp] theorem setNvs2_g2_iwram (n : Nvs2) (s : State) :
  (setNvs2 n s).g2.iwram = s.g2.iwram := rfl
@[simp] theorem setNvs2_g2_pal (n : Nvs2) (s : State) :
  (setNvs2 n s).g2.pal = s.g2.pal := rfl
@[simp] theorem setNvs2_g2_vram2 (n : Nvs2) (s : State) :
  (setNvs2 n s).g2.vram2 = s.g2.vram2 := rfl
@[simp] theorem setNvs2_g2_oam2 (n : Nvs2) (s : State) :
  (setNvs2 n s).g2.oam2 = s.g2.oam2 := rfl
@[simp] theorem setNvs2_g2_dma (n : Nvs2) (s : State) :
  (setNvs2 n s).g2.dma = s.g2.dma := rfl
@[simp] theorem setNvs2_g2_nvs2 (n : Nvs2) (s : State) :
  (setNvs2 n s).g2.nvs2 = n := rfl

/-! ### setChan -/

@[simp] theorem setChan_cfg (k : Chan) (d : DmaChannel) (s : State) : (setChan k d s).cfg = s.cfg := rfl
@[simp] theorem setChan_host (k : Chan) (d : DmaChannel) (s : State) : (setChan k d s).host = s.host := rfl
@[simp] theorem setChan_pending (k : Chan) (d : DmaChannel) (s : State) : (setChan k d s).pending = s.pending := rfl
@[simp] theorem setChan_loadable (k : Chan) (d : DmaChannel) (s : State) : (setChan k d s).loadable = s.loadable := rfl
@[simp] theorem setChan_result (k : Chan) (d : DmaChannel) (s : State) : (setChan k d s).result = s.result := rfl
@[simp] theorem setChan_outs (k : Chan) (d : DmaChannel) (s : State) : (setChan k d s).outs = s.outs := rfl
@[simp] theorem setChan_draws (k : Chan) (d : DmaChannel) (s : State) : (setChan k d s).draws = s.draws := rfl
@[simp] theorem setChan_g1 (k : Chan) (d : DmaChannel) (s : State) : (setChan k d s).g1 = s.g1 := rfl
@[simp] theorem setChan_g2_biosLatch (k : Chan) (d : DmaChannel) (s : State) :
  (setChan k d s).g2.biosLatch = s.g2.biosLatch := rfl
@[simp] theorem setChan_g2_ewram (k : Chan) (d : DmaChannel) (s : State) :
  (setChan k d s).g2.ewram = s.g2.ewram := rfl
@[simp] theorem setChan_g2_iwram (k : Chan) (d : DmaChannel) (s : State) :
  (setChan k d s).g2.iwram = s.g2.iwram := rfl
@[simp] theorem setChan_g2_pal (k : Chan) (d : DmaChannel) (s : State) :
  (setChan k d s).g2.pal = s.g2.pal := rfl
@[simp] theorem setChan_g2_vram2 (k : Chan) (d : DmaChannel) (s : State) :
  (setChan k d s).g2.vram2 = s.g2.vram2 := rfl
@[simp] theorem setChan_g2_oam2 (k : Chan) (d : DmaChannel) (s : State) :
  (setChan k d s).g2.oam2 = s.g2.oam2 := rfl
@[simp] theorem setChan_g2_dma (k : Chan) (d : DmaChannel) (s : State) :
  (setChan k d s).g2.dma = s.g2.dma.set k d := rfl
@[simp] theorem setChan_g2_nvs2 (k : Chan) (d : DmaChannel) (s : State) :
  (setChan k d s).g2.nvs2 = s.g2.nvs2 := rfl

/-! ### setResult -/

@[simp] theorem setResult_cfg (r : Result) (s : State) : (setResult r s).cfg = s.cfg := rfl
@[simp] theorem setResult_host (r : Result) (s : State) : (setResult r s).host = s.host := rfl
@[simp] theorem setResult_pending (r : Result) (s : State) : (setResult r s).pending = s.pending := rfl
@[simp] theorem setResult_loadable (r : Result) (s : State) : (setResult r s).loadable = s.loadable := rfl
@[simp] theorem setResult_result (r : Result) (s : State) : (setResult r s).result = r := rfl
@[simp] theorem setResult_outs (r : Result) (s : State) : (setResult r s).outs = s.outs := rfl
@[simp] theorem setResult_draws (r : Result) (s : State) : (setResult r s).draws = s.draws := rfl
@[simp] theorem setResult_g1 (r : Result) (s : State) : (setResult r s).g1 = s.g1 := rfl
@[simp] theorem setResult_g2 (r : Result) (s : State) : (setResult r s).g2 = s.g2 := rfl

/-! ### emit -/

@[simp] theorem emit_cfg (e : OutEvent) (s : State) : (emit e s).cfg = s.cfg := rfl
@[simp] theorem emit_host (e : OutEvent) (s : State) : (emit e s).host = s.host := rfl
@[simp] theorem emit_pending (e : OutEvent) (s : State) : (emit e s).pending = s.pending := rfl
@[simp] theorem emit_loadable (e : OutEvent) (s : State) : (emit e s).loadable = s.loadable := rfl
@[simp] theorem emit_result (e : OutEvent) (s : State) : (emit e s).result = s.result := rfl
@[simp] theorem emit_outs (e : OutEvent) (s : State) : (emit e s).outs = s.outs ++ [e] := rfl
@[simp] theorem emit_draws (e : OutEvent) (s : State) : (emit e s).draws = s.draws := rfl
@[simp] theorem emit_g1 (e : OutEvent) (s : State) : (emit e s).g1 = s.g1 := rfl
@[simp] theorem emit_g2 (e : OutEvent) (s : State) : (emit e s).g2 = s.g2 := rfl

/-! ### writeVram -/

@[simp] theorem writeVram_cfg (i : Nat) (v : Byte) (s : State) : (writeVram i v s).cfg = s.cfg := rfl
@[simp] theorem writeVram_host (i : Nat) (v : Byte) (s : State) : (writeVram i v s).host = s.host := rfl
@[simp] theorem writeVram_pending (i : Nat) (v : Byte) (s : State) : (writeVram i v s).pending = s.pending := rfl
@[simp] theorem writeVram_loadable (i : Nat) (v : Byte) (s : State) : (writeVram i v s).loadable = s.loadable := rfl
@[simp] theorem writeVram_result (i : Nat) (v : Byte) (s : State) : (writeVram i v s).result = s.result := rfl
@[simp] theorem writeVram_outs (i : Nat) (v : Byte) (s : State) : (writeVram i v s).outs = s.outs := rfl
@[simp] theorem writeVram_draws (i : Nat) (v : Byte) (s : State) : (writeVram i v s).draws = s.draws := rfl
@[simp] theorem writeVram_g1_bootEnabled (i : Nat) (v : Byte) (s : State) :
    (writeVram i v s).g1.bootEnabled = s.g1.bootEnabled := rfl
@[simp] theorem writeVram_g1_vram (i : Nat) (v : Byte) (s : State) :
    (writeVram i v s).g1.vram = s.g1.vram.write i v := rfl
@[simp] theorem writeVram_g1_vbk (i : Nat) (v : Byte) (s : State) :
    (writeVram i v s).g1.vbk = s.g1.vbk := rfl
@[simp] theorem writeVram_g1_wram (i : Nat) (v : Byte) (s : State) :
    (writeVram i v s).g1.wram = s.g1.wram := rfl
@[simp] theorem writeVram_g1_svbk (i : Nat) (v : Byte) (s : State) :
    (writeVram i v s).g1.svbk = s.g1.svbk := rfl
@[simp] theorem writeVram_g1_oam (i : Nat) (v : Byte) (s : State) :
    (writeVram i v s).g1.oam = s.g1.oam := rfl
@[simp] theorem writeVram_g1_hram (i : Nat) (v : Byte) (s : State) :
    (writeVram i v s).g1.hram = s.g1.hram := rfl
@[simp] theorem writeVram_g1_blocked (i : Nat) (v : Byte) (s : State) :
    (writeVram i v s).g1.blocked = s.g1.blocked := rfl
@[simp] theorem writeVram_g1_dmaLastByte (i : Nat) (v : Byte) (s : State) :
    (writeVram i v s).g1.dmaLastByte = s.g1.dmaLastByte := rfl
@[simp] theorem writeVram_g1_oamDma (i : Nat) (v : Byte) (s : State) :
    (writeVram i v s).g1.oamDma = s.g1.oamDma := rfl
@[simp] theorem writeVram_g1_vdma (i : Nat) (v : Byte) (s : State) :
    (writeVram i v s).g1.vdma = s.g1.vdma := rfl
@[simp] theorem writeVram_g1_bank (i : Nat) (v : Byte) (s : State) :
    (writeVram i v s).g1.bank = s.g1.bank := rfl
@[simp] theorem writeVram_g1_rumble (i : Nat) (v : Byte) (s : State) :
    (writeVram i v s).g1.rumble = s.g1.rumble := rfl
@[simp] theorem writeVram_g1_rtc (i : Nat) (v : Byte) (s : State) :
    (writeVram i v s).g1.rtc = s.g1.rtc := rfl
@[simp] theorem writeVram_g1_nvs1 (i : Nat) (v : Byte) (s : State) :
    (writeVram i v s).g1.nvs1 = s.g1.nvs1 := rfl
@[simp] theorem writeVram_g2 (i : Nat) (v : Byte) (s : State) : (writeVram i v s).g2 = s.g2 := rfl

/-! ### writeWram -/

@[simp] theorem writeWram_cfg (i : Nat) (v : Byte) (s : State) : (writeWram i v s).cfg = s.cfg := rfl
@[simp] theorem writeWram_host (i : Nat) (v : Byte) (s : State) : (writeWram i v s).host = s.host := rfl
@[simp] theorem writeWram_pending (i : Nat) (v : Byte) (s : State) : (writeWram i v s).pending = s.pending := rfl
@[simp] theorem writeWram_loadable (i : Nat) (v : Byte) (s : State) : (writeWram i v s).loadable = s.loadable := rfl
@[simp] theorem writeWram_result (i : Nat) (v : Byte) (s : State) : (writeWram i v s).result = s.result := rfl
@[simp] theorem writeWram_outs (i : Nat) (v : Byte) (s : State) : (writeWram i v s).outs = s.outs := rfl
@[simp] theorem writeWram_draws (i : Nat) (v : Byte) (s : State) : (writeWram i v s).draws = s.draws := rfl
@[simp] theorem writeWram_g1_bootEnabled (i : Nat) (v : Byte) (s : State) :
    (writeWram i v s).g1.bootEnabled = s.g1.bootEnabled := rfl
@[simp] theorem writeWram_g1_vram (i : Nat) (v : Byte) (s : State) :
    (writeWram i v s).g1.vram = s.g1.vram := rfl
@[simp] theorem writeWram_g1_vbk (i : Nat) (v : Byte) (s : State) :
    (writeWram i v s).g1.vbk = s.g1.vbk := rfl
@[simp] theorem writeWram_g1_wram (i : Nat) (v : Byte) (s : State) :
    (writeWram i v s).g1.wram = s.g1.wram.write i v := rfl
@[simp] theorem writeWram_g1_svbk (i : Nat) (v : Byte) (s : State) :
    (writeWram i v s).g1.svbk = s.g1.svbk := rfl
@[simp] theorem writeWram_g1_oam (i : Nat) (v : Byte) (s : State) :
    (writeWram i v s).g1.oam = s.g1.oam := rfl
@[simp] theorem writeWram_g1_hram (i : Nat) (v : Byte) (s : State) :
    (writeWram i v s).g1.hram = s.g1.hram := rfl
@[simp] theorem writeWram_g1_blocked (i : Nat) (v : Byte) (s : State) :
    (writeWram i v s).g1.blocked = s.g1.blocked := rfl
@[simp] theorem writeWram_g1_dmaLastByte (i : Nat) (v : Byte) (s : State) :
    (writeWram i v s).g1.dmaLastByte = s.g1.dmaLastByte := rfl
@[simp] theorem writeWram_g1_oamDma (i : Nat) (v : Byte) (s : State) :
    (writeWram i v s).g1.oamDma = s.g1.oamDma := rfl
@[simp] theorem writeWram_g1_vdma (i : Nat) (v : Byte) (s : State) :
    (writeWram i v s).g1.vdma = s.g1.vdma := rfl
@[simp] theorem writeWram_g1_bank (i : Nat) (v : Byte) (s : State) :
    (writeWram i v s).g1.bank = s.g1.bank := rfl
@[simp] theorem writeWram_g1_rumble (i : Nat) (v : Byte) (s : State) :
    (writeWram i v s).g1.rumble = s.g1.rumble := rfl
@[simp] theorem writeWram_g1_rtc (i : Nat) (v : Byte) (s : State) :
    (writeWram i v s).g1.rtc = s.g1.rtc := rfl
@[simp] theorem writeWram_g1_nvs1 (i : Nat) (v : Byte) (s : State) :
    (writeWram i v s).g1.nvs1 = s.g1.nvs1 := rfl
@[simp] theorem writeWram_g2 (i : Nat) (v : Byte) (s : State) : (writeWram i v s).g2 = s.g2 := rfl

/-! ### writeOam -/

@[simp] theorem writeOam_cfg (i : Nat) (v : Byte) (s : State) : (writeOam i v s).cfg = s.cfg := rfl
@[simp] theorem writeOam_host (i : Nat) (v : Byte) (s : State) : (writeOam i v s).host = s.host := rfl
@[simp] theorem writeOam_pending (i : Nat) (v : Byte) (s : State) : (writeOam i v s).pending = s.pending := rfl
@[simp] theorem writeOam_loadable (i : Nat) (v : Byte) (s : State) : (writeOam i v s).loadable = s.loadable := rfl
@[simp] theorem writeOam_result (i : Nat) (v : Byte) (s : State) : (writeOam i v s).result = s.result := rfl
@[simp] theorem writeOam_outs (i : Nat) (v : Byte) (s : State) : (writeOam i v s).outs = s.outs := rfl
@[simp] theorem writeOam_draws (i : Nat) (v : Byte) (s : State) : (writeOam i v s).draws = s.draws := rfl
@[simp] theorem writeOam_g1_bootEnabled (i : Nat) (v : Byte) (s : State) :
    (writeOam i v s).g1.bootEnabled = s.g1.bootEnabled := rfl
@[simp] theorem writeOam_g1_vram (i : Nat) (v : Byte) (s : State) :
    (writeOam i v s).g1.vram = s.g1.vram := rfl
@[simp] theorem writeOam_g1_vbk (i : Nat) (v : Byte) (s : State) :
    (writeOam i v s).g1.vbk = s.g1.vbk := rfl
@[simp] theorem writeOam_g1_wram (i : Nat) (v : Byte) (s : State) :
    (writeOam i v s).g1.wram = s.g1.wram := rfl
@[simp] theorem writeOam_g1_svbk (i : Nat) (v : Byte) (s : State) :
    (writeOam i v s).g1.svbk = s.g1.svbk := rfl
@[simp] theorem writeOam_g1_oam (i : Nat) (v : Byte) (s : State) :
    (writeOam i v s).g1.oam = s.g1.oam.write i v := rfl
@[simp] theorem writeOam_g1_hram (i : Nat) (v : Byte) (s : State) :
    (writeOam i v s).g1.hram = s.g1.hram := rfl
@[simp] theorem writeOam_g1_blocked (i : Nat) (v : Byte) (s : State) :
    (writeOam i v s).g1.blocked = s.g1.blocked := rfl
@[simp] theorem writeOam_g1_dmaLastByte (i : Nat) (v : Byte) (s : State) :
    (writeOam i v s).g1.dmaLastByte = s.g1.dmaLastByte := rfl
@[simp] theorem writeOam_g1_oamDma (i : Nat) (v : Byte) (s : State) :
    (writeOam i v s).g1.oamDma = s.g1.oamDma := rfl
@[simp] theorem writeOam_g1_vdma (i : Nat) (v : Byte) (s : State) :
    (writeOam i v s).g1.vdma = s.g1.vdma := rfl
@[simp] theorem writeOam_g1_bank (i : Nat) (v : Byte) (s : State) :
    (writeOam i v s).g1.bank = s.g1.bank := rfl
@[simp] theorem writeOam_g1_rumble (i : Nat) (v : Byte) (s : State) :
    (writeOam i v s).g1.rumble = s.g1.rumble := rfl
@[simp] theorem writeOam_g1_rtc (i : Nat) (v : Byte) (s : State) :
    (writeOam i v s).g1.rtc = s.g1.rtc := rfl
@[simp] theorem writeOam_g1_nvs1 (i : Nat) (v : Byte) (s : State) :
    (writeOam i v s).g1.nvs1 = s.g1.nvs1 := rfl
@[simp] theorem writeOam_g2 (i : Nat) (v : Byte) (s : State) : (writeOam i v s).g2 = s.g2 := rfl

/-! ### writeHram -/

@[simp] theorem writeHram_cfg (i : Nat) (v : Byte) (s : State) : (writeHram i v s).cfg = s.cfg := rfl
@[simp] theorem writeHram_host (i : Nat) (v : Byte) (s : State) : (writeHram i v s).host = s.host := rfl
@[simp] theorem writeHram_pending (i : Nat) (v : Byte) (s : State) : (writeHram i v s).pending = s.pending := rfl
@[simp] theorem writeHram_loadable (i : Nat) (v : Byte) (s : State) : (writeHram i v s).loadable = s.loadable := rfl
@[simp] theorem writeHram_result (i : Nat) (v : Byte) (s : State) : (writeHram i v s).result = s.result := rfl
@[simp] theorem writeHram_outs (i : Nat) (v : Byte) (s : State) : (writeHram i v s).outs = s.outs := rfl
@[simp] theorem writeHram_draws (i : Nat) (v : Byte) (s : State) : (writeHram i v s).draws = s.draws := rfl
@[simp] theorem writeHram_g1_bootEnabled (i : Nat) (v : Byte) (s : State) :
    (writeHram i v s).g1.bootEnabled = s.g1.bootEnabled := rfl
@[simp] theorem writeHram_g1_vram (i : Nat) (v : Byte) (s : State) :
    (writeHram i v s).g1.vram = s.g1.vram := rfl
@[simp] theorem writeHram_g1_vbk (i : Nat) (v : Byte) (s : State) :
    (writeHram i v s).g1.vbk = s.g1.vbk := rfl
@[simp] theorem writeHram_g1_wram (i : Nat) (v : Byte) (s : State) :
    (writeHram i v s).g1.wram = s.g1.wram := rfl
@[simp] theorem writeHram_g1_svbk (i : Nat) (v : Byte) (s : State) :
    (writeHram i v s).g1.svbk = s.g1.svbk := rfl
@[simp] theorem writeHram_g1_oam (i : Nat) (v : Byte) (s : State) :
    (writeHram i v s).g1.oam = s.g1.oam := rfl
@[simp] theorem writeHram_g1_hram (i : Nat) (v : Byte) (s : State) :
    (writeHram i v s).g1.hram = s.g1.hram.write i v := rfl
@[simp] theorem writeHram_g1_blocked (i : Nat) (v : Byte) (s : State) :
    (writeHram i v s).g1.blocked = s.g1.blocked := rfl
@[simp] theorem writeHram_g1_dmaLastByte (i : Nat) (v : Byte) (s : State) :
    (writeHram i v s).g1.dmaLastByte = s.g1.dmaLastByte := rfl
@[simp] theorem writeHram_g1_oamDma (i : Nat) (v : Byte) (s : State) :
    (writeHram i v s).g1.oamDma = s.g1.oamDma := rfl
@[simp] theorem writeHram_g1_vdma (i : Nat) (v : Byte) (s : State) :
    (writeHram i v s).g1.vdma = s.g1.vdma := rfl
@[simp] theorem writeHram_g1_bank (i : Nat) (v : Byte) (s : State) :
    (writeHram i v s).g1.bank = s.g1.bank := rfl
@[simp] theorem writeHram_g1_rumble (i : Nat) (v : Byte) (s : State) :
    (writeHram i v s).g1.rumble = s.g1.rumble := rfl
@[simp] theorem writeHram_g1_rtc (i : Nat) (v : Byte) (s : State) :
    (writeHram i v s).g1.rtc = s.g1.rtc := rfl
@[simp] theorem writeHram_g1_nvs1 (i : Nat) (v : Byte) (s : State) :
    (writeHram i v s).g1.nvs1 = s.g1.nvs1 := rfl
@[simp] theorem writeHram_g2 (i : Nat) (v : Byte) (s : State) : (writeHram i v s).g2 = s.g2 := rfl

/-! ### afterCall -/

@[simp] theorem afterCall_cfg (s : State) : (afterCall s).cfg = s.cfg := rfl
@[simp] theorem afterCall_host (s : State) : (afterCall s).host = s.host := rfl
@[simp] theorem afterCall_pending (s : State) : (afterCall s).pending = s.pending := rfl
@[simp] theorem afterCall_loadable (s : State) : (afterCall s).loadable = false := rfl
@[simp] theorem afterCall_result (s : State) : (afterCall s).result = s.result := rfl
@[simp] theorem afterCall_outs (s : State) : (afterCall s).outs = s.outs := rfl
@[simp] theorem afterCall_draws (s : State) : (afterCall s).draws = s.draws := rfl
@[simp] theorem afterCall_g1 (s : State) : (afterCall s).g1 = s.g1 := rfl
@[simp] theorem afterCall_g2 (s : State) : (afterCall s).g2 = s.g2 := rfl

/-! ### Channels -/

@[simp] theorem Channels.get_set_same (c : Channels) (k : Chan) (d : DmaChannel) :
    (c.set k d).get k = d := by cases k <;> rfl

theorem Channels.get_set_other (c : Channels) (j k : Chan) (d : DmaChannel) (h : j ≠ k) :
    (c.set k d).get j = c.get j := by cases j <;> cases k <;> first | rfl | exact absurd rfl h

@[simp] theorem chan_setChan_same (k : Chan) (d : DmaChannel) (s : State) :
    chan (setChan k d s) k = d := Channels.get_set_same _ _ _

theorem chan_setChan_other (j k : Chan) (d : DmaChannel) (s : State) (h : j ≠ k) :
    chan (setChan k d s) j = chan s j := Channels.get_set_other _ _ _ _ h

@[simp] theorem setChan_setChan (k : Chan) (d e : DmaChannel) (s : State) :
    setChan k e (setChan k d s) = setChan k e s := by cases k <;> rfl

@[simp] theorem setChan_chan (k : Chan) (s : State) : setChan k (chan s k) s = s := by
  cases k <;> rfl

@[simp] theorem chan_setBank (b : BankState) (j : Chan) (s : State) : chan (setBank b s) j = chan s j := rfl
@[simp] theorem chan_setRtc (r : Rtc) (j : Chan) (s : State) : chan (setRtc r s) j = chan s j := rfl
@[simp] theorem chan_setOamDma (d : OamDma) (j : Chan) (s : State) : chan (setOamDma d s) j = chan s j := rfl
@[simp] theorem chan_setVdma (d : Vdma) (j : Chan) (s : State) : chan (setVdma d s) j = chan s j := rfl
@[simp] theorem chan_setNvs2 (n : Nvs2) (j : Chan) (s : State) : chan (setNvs2 n s) j = chan s j := rfl
@[simp] theorem chan_setResult (r : Result) (j : Chan) (s : State) : chan (setResult r s) j = chan s j := rfl
@[simp] theorem chan_emit (e : OutEvent) (j : Chan) (s : State) : chan (emit e s) j = chan s j := rfl
@[simp] theorem chan_writeVram (i : Nat) (v : Byte) (j : Chan) (s : State) : chan (writeVram i v s) j = chan s j := rfl
@[simp] theorem chan_writeWram (i : Nat) (v : Byte) (j : Chan) (s : State) : chan (writeWram i v s) j = chan s j := rfl
@[simp] theorem chan_writeOam (i : Nat) (v : Byte) (j : Chan) (s : State) : chan (writeOam i v s) j = chan s j := rfl
@[simp] theorem chan_writeHram (i : Nat) (v : Byte) (j : Chan) (s : State) : chan (writeHram i v s) j = chan s j := rfl
@[simp] theorem chan_afterCall(j : Chan) (s : State) : chan (afterCall s) j = chan s j := rfl

end Sys2Proof.Machine
end

