-- ==== Sys2Proof/Laws/Bus.lean ====
section
/-! SUPPORT. The calls `read` and `write` on each generation, and the regions of each address map, one
lemma each, so that no proof unfolds the bus. -/
namespace Sys2Proof.Machine

/-! ### Generation 1 -/

theorem gbAddr_setWidth (a : Half) : (gbAddr a).setWidth 16 = a := by
  apply BitVec.eq_of_toNat_eq; simp [gbAddr]

theorem gbAddr_le (a : Half) : ¬ (0xFFFF < gbAddr a) := by
  have := a.isLt
  unfold gbAddr
  bv_omega

theorem accessRefusal_gen1 {m : Master} {a : Half} {s : State} (g : s.cfg.gen = .gen1)
    (hm : hasMaster s.cfg m = true) : accessRefusal m (gbAddr a) .b1 s = none := by
  rw [accessRefusal, g]
  simp only [ne_eq, not_true, if_false]
  rw [if_neg (gbAddr_le a), if_pos hm]

/-- A one-byte read by the CPU that is not stalled, on generation 1. -/
theorem cpuRead_gen1 {k : AccessKind} {a : Half} {s : State} (g : s.cfg.gen = .gen1)
    (st : cpuStalled s = false) :
    callRead .cpu k (gbAddr a) .b1 s
      = .next (returning ((read1 .cpu a s).1.setWidth 32, (read1 .cpu a s).2)) := by
  simp [callRead, violates, st, accessRefusal_gen1 g (m := .cpu) rfl, busRead, g, gbAddr_setWidth]

/-- A one-byte write by the CPU that is not stalled, on generation 1. -/
theorem cpuWrite_gen1 {a : Half} {v : Byte} {s : State} (g : s.cfg.gen = .gen1)
    (st : cpuStalled s = false) :
    callWrite .cpu (gbAddr a) .b1 (v.setWidth 32) s = write1 .cpu a v s := by
  have hv : (v.setWidth 32 : Word).setWidth 8 = v := by
    apply BitVec.eq_of_toNat_eq
    have := v.isLt
    simp
  simp [callWrite, violates, st, accessRefusal_gen1 g (m := .cpu) rfl, busWrite, g, gbAddr_setWidth, hv]

theorem read1_open {a : Half} {s : State} (h : heldBack s a = none) : read1 .cpu a s = openRead1 a s := by
  simp [read1, h]

theorem read1_held {a : Half} {s : State} {v : Byte} (h : heldBack s a = some v) :
    read1 .cpu a s = (v, s) := by
  simp [read1, h]

theorem write1_open {a : Half} {v : Byte} {s : State} (h : heldBack s a = none) :
    write1 .cpu a v s = regionWrite1 (echo a) v s := by
  simp [write1, h]

theorem write1_held {a : Half} {v w : Byte} {s : State} (h : heldBack s a = some w) :
    write1 .cpu a v s = .next s := by
  simp [write1, h]

/-- A CPU read of one byte that reaches its location. -/
theorem cpuRead8_open {a : Half} {s : State} (g : s.cfg.gen = .gen1) (st : cpuStalled s = false)
    (h : heldBack s a = none) :
    cpuRead8 (gbAddr a) s
      = .next (returning ((openRead1 a s).1.setWidth 32, (openRead1 a s).2)) := by
  rw [cpuRead8, cpuRead_gen1 g st, read1_open h]

/-- A CPU write of one byte that reaches its location. -/
theorem cpuWrite8_open {a : Half} {v : Byte} {s : State} (g : s.cfg.gen = .gen1)
    (st : cpuStalled s = false) (h : heldBack s a = none) :
    cpuWrite8 (gbAddr a) v s = regionWrite1 (echo a) v s := by
  rw [cpuWrite8, cpuWrite_gen1 g st, write1_open h]

theorem echo_low {a : Half} (h : a < 0xE000) : echo a = a := by
  unfold echo; split <;> [(exfalso; bv_omega); rfl]

theorem echo_high {a : Half} (h : 0xFE00 ≤ a) : echo a = a := by
  unfold echo; split <;> [(exfalso; bv_omega); rfl]

theorem regionWrite1_rom {b : Half} {v : Byte} {s : State} (h : b ≤ 0x7FFF) :
    regionWrite1 b v s = .next (writeControl b v s) := by rw [regionWrite1, if_pos h]

theorem regionWrite1_vram {b : Half} {v : Byte} {s : State} (h : 0x8000 ≤ b) (k : b ≤ 0x9FFF) :
    regionWrite1 b v s = .next (writeVram (vramIndex s.g1.vbk (b.toNat - 0x8000)) v s) := by
  rw [regionWrite1, if_neg (by bv_omega), if_pos k]

theorem regionWrite1_ram {b : Half} {v : Byte} {s : State} (h : 0xA000 ≤ b) (k : b ≤ 0xBFFF) :
    regionWrite1 b v s = writeRam b v s := by
  rw [regionWrite1, if_neg (by bv_omega), if_neg (by bv_omega), if_pos k]

theorem regionWrite1_wram {b : Half} {v : Byte} {s : State} (h : 0xC000 ≤ b) (k : b ≤ 0xDFFF) :
    regionWrite1 b v s = .next (writeWram (wramIndex s b) v s) := by
  rw [regionWrite1, if_neg (by bv_omega), if_neg (by bv_omega), if_neg (by bv_omega), if_pos k]

theorem regionWrite1_oam {b : Half} {v : Byte} {s : State} (h : 0xFE00 ≤ b) (k : b ≤ 0xFE9F) :
    regionWrite1 b v s = .next (writeOam (b.toNat - 0xFE00) v s) := by
  rw [regionWrite1, if_neg (by bv_omega), if_neg (by bv_omega), if_neg (by bv_omega),
    if_neg (by bv_omega), if_pos k]

theorem regionWrite1_io {b : Half} {v : Byte} {s : State} (h : 0xFF00 ≤ b) (k : b ≤ 0xFF7F) :
    regionWrite1 b v s = ioWrite1 b v s := by
  rw [regionWrite1, if_neg (by bv_omega), if_neg (by bv_omega), if_neg (by bv_omega),
    if_neg (by bv_omega), if_neg (by bv_omega), if_neg (by bv_omega), if_pos k]

theorem regionWrite1_hram {b : Half} {v : Byte} {s : State} (h : 0xFF80 ≤ b) (k : b ≤ 0xFFFE) :
    regionWrite1 b v s = .next (writeHram (b.toNat - 0xFF80) v s) := by
  rw [regionWrite1, if_neg (by bv_omega), if_neg (by bv_omega), if_neg (by bv_omega),
    if_neg (by bv_omega), if_neg (by bv_omega), if_neg (by bv_omega), if_neg (by bv_omega), if_pos k]

theorem regionRead1_rom {b : Half} {s : State} (h : b ≤ 0x7FFF) :
    regionRead1 b s = (readRom s b, s) := by rw [regionRead1, if_pos h]

theorem regionRead1_vram {b : Half} {s : State} (h : 0x8000 ≤ b) (k : b ≤ 0x9FFF) :
    regionRead1 b s = (s.g1.vram.read (vramIndex s.g1.vbk (b.toNat - 0x8000)), s) := by
  rw [regionRead1, if_neg (by bv_omega), if_pos k]

theorem regionRead1_ram {b : Half} {s : State} (h : 0xA000 ≤ b) (k : b ≤ 0xBFFF) :
    regionRead1 b s = (readRam s b, s) := by
  rw [regionRead1, if_neg (by bv_omega), if_neg (by bv_omega), if_pos k]

theorem regionRead1_wram {b : Half} {s : State} (h : 0xC000 ≤ b) (k : b ≤ 0xDFFF) :
    regionRead1 b s = (s.g1.wram.read (wramIndex s b), s) := by
  rw [regionRead1, if_neg (by bv_omega), if_neg (by bv_omega), if_neg (by bv_omega), if_pos k]

theorem regionRead1_io {b : Half} {s : State} (h : 0xFF00 ≤ b) (k : b ≤ 0xFF7F) :
    regionRead1 b s = ioRead1 b s := by
  rw [regionRead1, if_neg (by bv_omega), if_neg (by bv_omega), if_neg (by bv_omega),
    if_neg (by bv_omega), if_neg (by bv_omega), if_neg (by bv_omega), if_pos k]

/-- An address from 0x0900 up is under no boot ROM of a legal length. -/
theorem bootOverlay_none {s : State} {b : Half} (h : s.g1.bootEnabled = false ∨ s.cfg.boot = none) :
    bootOverlay s b = none := by
  unfold bootOverlay
  split
  · rfl
  · rcases h with h | h <;> simp_all

/-! ### Generation 2 -/

/-- A CPU read while it is not stalled, on generation 2. -/
theorem cpuRead_gen2 {k : AccessKind} {a : Word} {w : Width} {s : State} (g : s.cfg.gen = .gen2)
    (st : cpuStalled s = false) : callRead .cpu k a w s = .next (returning (read2 .cpu k a w s)) := by
  simp [callRead, violates, st, accessRefusal, g, hasMaster, busRead]

/-- A CPU write while it is not stalled, on generation 2. -/
theorem cpuWrite_gen2 {a : Word} {w : Width} {v : Word} {s : State} (g : s.cfg.gen = .gen2)
    (st : cpuStalled s = false) : callWrite .cpu a w v s = write2 .cpu a w v s := by
  simp [callWrite, violates, st, accessRefusal, g, hasMaster, busWrite]

/-- A read by a channel, on generation 2. -/
theorem chanRead_gen2 {c : Chan} {k : AccessKind} {a : Word} {w : Width} {s : State}
    (g : s.cfg.gen = .gen2) :
    callRead (.chan c) k a w s = .next (returning (read2 (.chan c) k a w s)) := by
  simp [callRead, violates, accessRefusal, g, hasMaster, busRead]

/-- A write by a channel, on generation 2. -/
theorem chanWrite_gen2 {c : Chan} {a : Word} {w : Width} {v : Word} {s : State}
    (g : s.cfg.gen = .gen2) : callWrite (.chan c) a w v s = write2 (.chan c) a w v s := by
  simp [callWrite, violates, accessRefusal, g, hasMaster, busWrite]

theorem page_lt4 {a : Word} {p : Byte} (h : page a = p) (k : p < 4) : page a < 0x04 := by rw [h]; exact k

theorem page_toNat (a : Word) : (page a).toNat = a.toNat / 2 ^ 24 := by
  have := a.isLt
  simp only [page, BitVec.extractLsb'_toNat, Nat.shiftRight_eq_div_pow]
  omega

theorem page_dma {a : Word} (h : 0x040000B0 ≤ a) (k : a ≤ 0x040000DF) : page a = 0x04 := by
  have := page_toNat a
  bv_omega

theorem windowAddr_toNat (a : BitVec 25) : (windowAddr a).toNat = 7 * 2 ^ 25 + a.toNat := by
  have := a.isLt
  simp only [windowAddr, BitVec.toNat_append, BitVec.toNat_ofNat]
  rw [← Nat.shiftLeft_add_eq_or_of_lt this, Nat.shiftLeft_eq]

theorem eepromAddr_toNat (a : BitVec 24) : (eepromAddr a).toNat = 0x0D * 2 ^ 24 + a.toNat := by
  have := a.isLt
  simp only [eepromAddr, BitVec.toNat_append, BitVec.toNat_ofNat]
  rw [← Nat.shiftLeft_add_eq_or_of_lt this, Nat.shiftLeft_eq]

theorem page_window (a : BitVec 25) : ¬ page (windowAddr a) < 0x0E ∧ page (windowAddr a) < 0x10 := by
  have := a.isLt
  have h := page_toNat (windowAddr a)
  rw [windowAddr_toNat] at h
  constructor <;> bv_omega

theorem page_eeprom (a : BitVec 24) : page (eepromAddr a) = 0x0D := by
  have := a.isLt
  have h := page_toNat (eepromAddr a)
  rw [eepromAddr_toNat] at h
  bv_omega

theorem read2_window {m : Master} {k : AccessKind} {a : BitVec 25} {w : Width} {s : State} :
    read2 m k (windowAddr a) w s = (storageRead (windowAddr a) w s, s) := by
  have h := page_window a
  rw [read2, if_neg (by bv_omega), if_neg (by bv_omega), if_neg h.1, if_pos h.2]

theorem write2_window {m : Master} {a : BitVec 25} {w : Width} {v : Word} {s : State} :
    write2 m (windowAddr a) w v s = storageWrite (windowAddr a) w v s := by
  have h := page_window a
  rw [write2, if_neg (by bv_omega), if_neg (by bv_omega), if_neg h.1, if_pos h.2]

theorem read2_eeprom {m : Master} {k : AccessKind} {a : BitVec 24} {w : Width} {s : State} :
    read2 m k (eepromAddr a) w s = compose16 cartRead16 (align w (eepromAddr a)) w s := by
  have h := page_eeprom a
  rw [read2, if_neg (by rw [h]; decide), if_neg (by rw [h]; decide), if_pos (by rw [h]; decide)]

theorem write2_eeprom {m : Master} {a : BitVec 24} {w : Width} {v : Word} {s : State} :
    write2 m (eepromAddr a) w v s = compose16W (cartWrite16 m) (align w (eepromAddr a)) w v s := by
  have h := page_eeprom a
  rw [write2, if_neg (by rw [h]; decide), if_neg (by rw [h]; decide), if_pos (by rw [h]; decide)]

end Sys2Proof.Machine
end

