-- ==== Sys2Proof/Laws/Moves.lean ====
section
/-! SUPPORT. Everything an operation can do, said once: `exec` answers only states that a sequence of
the moves below leads to. An invariant that every move keeps is kept by every operation (`exec_keeps`) and
by every step (`step_keeps`), with no operation unfolded. -/
namespace Sys2Proof.Machine

/-- One change of the state. -/
inductive Move : State → State → Prop
  | draw (n : Nat) (s : State) : Move s { s with draws := s.draws + n }
  | event (e : OutEvent) (s : State) (h : ∀ k, e ≠ .interrupt k) : Move s (emit e s)
  | result (r : Result) (s : State) : Move s (setResult r s)
  | control (a : Half) (v : Byte) (s : State) (g : s.cfg.gen = .gen1) : Move s (writeControl a v s)
  | nvs1 (o : Nat) (v : Byte) (s : State) (g : s.cfg.gen = .gen1) : Move s (writeNvs1 o v s)
  | rtc (sel v : Byte) (s : State) (g : s.cfg.gen = .gen1) (h : rtcInRange sel v = true) :
      Move s (setRtc (rtcStore (nowOf s) sel v s.g1.rtc) s)
  | vram (i : Nat) (v : Byte) (s : State) (g : s.cfg.gen = .gen1) : Move s (writeVram i v s)
  | wram (i : Nat) (v : Byte) (s : State) (g : s.cfg.gen = .gen1) : Move s (writeWram i v s)
  | oam (i : Nat) (v : Byte) (s : State) (g : s.cfg.gen = .gen1) : Move s (writeOam i v s)
  | hram (i : Nat) (v : Byte) (s : State) (g : s.cfg.gen = .gen1) : Move s (writeHram i v s)
  | dmaReg (v : Byte) (s : State) (g : s.cfg.gen = .gen1) : Move s (writeDma v s)
  | vbk (v : Byte) (s : State) (g : s.cfg.gen = .gen1) : Move s (writeVbk v s)
  | boot (v : Byte) (s : State) (g : s.cfg.gen = .gen1) : Move s (writeBoot v s)
  | svbk (v : Byte) (s : State) (g : s.cfg.gen = .gen1) : Move s (writeSvbk v s)
  | vdmaReg (a : Half) (v : Byte) (s t : State) (g : s.cfg.gen = .gen1)
      (h : writeVdmaReg a v s = .next t) : Move s t
  | hblank (s : State) (g : s.cfg.gen = .gen1) : Move s (vdmaHBlank s)
  | oamCount (s : State) (g : s.cfg.gen = .gen1) (h : s.g1.oamDma.state ≠ .inactive) :
      Move s (oamCount s)
  | oamEnter (s : State) (g : s.cfg.gen = .gen1) (h : s.g1.oamDma.state = .starting) :
      Move s (oamEnterActive s)
  | oamUnit (b : Byte) (s : State) (g : s.cfg.gen = .gen1) (h : s.g1.oamDma.state = .active) :
      Move s (oamNext (oamStore b s))
  | vdmaCount (s : State) (g : s.cfg.gen = .gen1) (h : s.g1.vdma.state = .active) :
      Move s (vdmaCount s)
  | vdmaStore (b : Byte) (s : State) (g : s.cfg.gen = .gen1) (h : s.g1.vdma.state = .active) :
      Move s (vdmaStore b s)
  | vdmaBlockEnd (s : State) (g : s.cfg.gen = .gen1) (h : s.g1.vdma.state = .active) :
      Move s (setVdma (vdmaAfterBlock s.cfg.timing s.g1.vdma) s)
  | bios (v : Word) (s : State) (g : s.cfg.gen = .gen2) : Move s { s with g2.biosLatch := v }
  | ewram (o : Nat) (w : Width) (v : Word) (s : State) (g : s.cfg.gen = .gen2) :
      Move s { s with g2.ewram := storeLE s.g2.ewram o w v }
  | iwram (o : Nat) (w : Width) (v : Word) (s : State) (g : s.cfg.gen = .gen2) :
      Move s { s with g2.iwram := storeLE s.g2.iwram o w v }
  | pal (a : Word) (w : Width) (v : Word) (s : State) (g : s.cfg.gen = .gen2) :
      Move s (writePal a w v s)
  | vram2 (a : Word) (w : Width) (v : Word) (s : State) (g : s.cfg.gen = .gen2) :
      Move s (writeVram2 a w v s)
  | oam2 (a : Word) (w : Width) (v : Word) (s : State) (g : s.cfg.gen = .gen2) :
      Move s (writeOam2 a w v s)
  | storage (o : Half) (v : Byte) (s t : State) (g : s.cfg.gen = .gen2)
      (h : storageWriteByte o v s = .next t) : Move s t
  | sniffStorage (o : Half) (v : Byte) (s : State) (g : s.cfg.gen = .gen2)
      (h : s.g2.nvs2 = .unresolved) : Move s (sniffStorage o v s)
  | sniffEeprom (s : State) (g : s.cfg.gen = .gen2) (h : s.g2.nvs2 = .unresolved) :
      Move s (setNvs2 (.eeprom sniffedEeprom) s)
  | drain (e : Eeprom) (s : State) (g : s.cfg.gen = .gen2) (h : s.g2.nvs2 = .eeprom e) :
      Move s (setNvs2 (.eeprom (drain e).2) s)
  | appendBit (b : Bool) (s : State) (g : s.cfg.gen = .gen2) : Move s (appendBit b s)
  | endStream (s : State) (g : s.cfg.gen = .gen2) : Move s (endStream s)
  | wrote (k : Chan) (b : Bool) (s : State) (g : s.cfg.gen = .gen2) :
      Move s (setChan k { chan s k with eepromWrote := b } s)
  | storageTick (s : State) (g : s.cfg.gen = .gen2) : Move s (storageTick1 s)
  | cellStore (k : Chan) (x : DmaCell) (d mask : Half) (r : Reg16) (s : State) (g : s.cfg.gen = .gen2)
      (h : ((chan s k).cell x).write d mask = .next r) :
      Move s (setChan k ((chan s k).setCell x r) s)
  | enable (k : Chan) (s : State) (g : s.cfg.gen = .gen2) (h : enableBit (chan s k).cntH.value = true) :
      Move s (setChan k (dmaEnable s.cfg.timing k (chan s k)) s)
  | stop (k : Chan) (s : State) (g : s.cfg.gen = .gen2) (h : (chan s k).state = .active) :
      Move s (setChan k { chan s k with stop := true } s)
  | stopped (k : Chan) (s : State) (g : s.cfg.gen = .gen2) :
      Move s (setChan k (dmaStopped (chan s k)) s)
  | unitEnd (k : Chan) (c₀ : DmaChannel) (s : State) (g : s.cfg.gen = .gen2) :
      Move s (afterUnit k (setChan k (counted k c₀ (chan s k)) s))
  | chanCount (k : Chan) (s : State) (g : s.cfg.gen = .gen2) (h : (chan s k).state = .active) :
      Move s (chanCount k s)
  | rearm (k : Chan) (s : State) (g : s.cfg.gen = .gen2) : Move s (rearm k s)
  | startCount (k : Chan) (s : State) (g : s.cfg.gen = .gen2) (h : (chan s k).state = .starting) :
      Move s (setChan k (startCount s.cfg.timing (chan s k)) s)
  | trigger (e : Event) (s : State) (g : s.cfg.gen = .gen2) : Move s (dmaTrigger e s)
  | load (f : SaveFile) (s t : State) (h : callLoad f s = .next t) : Move s t
  | normalize (s : State) (g : s.cfg.gen = .gen1) : Move s (normalizedFor s)

/-- A sequence of moves. -/
abbrev Moves : State → State → Prop := Relation.ReflTransGen Move

theorem Move.one {s t : State} (h : Move s t) : Moves s t := .single h

theorem Moves.same (s : State) : Moves s s := Relation.ReflTransGen.refl

/-! ### What no move touches -/

theorem runStream_cfg (l : List Bool) (e : Eeprom) (s : State) : (runStream l e s).cfg = s.cfg := by
  unfold runStream runCommand stageRead startWrite drawBits
  repeat' (first | rfl | split)

@[simp] theorem endStream_cfg (s : State) : (endStream s).cfg = s.cfg := by
  unfold endStream; split <;> [exact runStream_cfg _ _ _; rfl]

@[simp] theorem streamBoundary_cfg (k : Chan) (s : State) : (streamBoundary k s).cfg = s.cfg := by
  unfold streamBoundary; split <;> simp

@[simp] theorem dmaHalt_cfg (k : Chan) (s : State) : (dmaHalt k s).cfg = s.cfg := by
  simp [dmaHalt]

@[simp] theorem requestIfIrq_cfg (k : Chan) (s : State) : (requestIfIrq k s).cfg = s.cfg := by
  unfold requestIfIrq requestInterrupt; split <;> simp

@[simp] theorem dmaComplete_cfg (k : Chan) (s : State) : (dmaComplete k s).cfg = s.cfg := by
  simp [dmaComplete, beforeReload]

@[simp] theorem afterUnit_cfg (k : Chan) (s : State) : (afterUnit k s).cfg = s.cfg := by
  unfold afterUnit; repeat' (first | simp | split)

@[simp] theorem writeControl_cfg (a : Half) (v : Byte) (s : State) : (writeControl a v s).cfg = s.cfg := by
  unfold writeControl writeControlA writeControlB writeControlC writeControlD ramgA rombA rambA modeA
    ramgB rombB ramgC rombC rambC latchC ramgD romb0D romb1D rambD
  repeat' (first | rfl | split)

@[simp] theorem writeNvs1_cfg (o : Nat) (v : Byte) (s : State) : (writeNvs1 o v s).cfg = s.cfg := by
  unfold writeNvs1; split <;> rfl

@[simp] theorem writeDma_cfg (v : Byte) (s : State) : (writeDma v s).cfg = s.cfg := by
  unfold writeDma oamStart oamEnterActive oamArm; split <;> rfl

theorem writeVdmaReg_cfg {a : Half} {v : Byte} {s t : State} (h : writeVdmaReg a v s = .next t) :
    t.cfg = s.cfg := by
  unfold writeVdmaReg at h
  repeat' split at h
  all_goals first
    | (cases h; rfl)
    | (obtain ⟨d, -, hd⟩ := bindR_eq_next.1 h; cases hd; rfl)

theorem storageWriteByte_cfg {o : Half} {v : Byte} {s t : State}
    (h : storageWriteByte o v s = .next t) : t.cfg = s.cfg := by
  unfold storageWriteByte at h
  split at h
  all_goals first
    | (cases h; rfl)
    | (obtain ⟨d, -, hd⟩ := bindR_eq_next.1 h; cases hd; rfl)

theorem callLoad_cfg {f : SaveFile} {s t : State} (h : callLoad f s = .next t) : t.cfg = s.cfg := by
  unfold callLoad load1 load2 loadBytes1 loadTrailer loadBytes2 loadNoFile1 loadNoFile2 at h
  repeat' split at h
  all_goals first
    | (cases h; done)
    | (cases h; rfl)

@[simp] theorem writeVbk_cfg (v : Byte) (s : State) : (writeVbk v s).cfg = s.cfg := by
  unfold writeVbk; split <;> rfl

@[simp] theorem writeBoot_cfg (v : Byte) (s : State) : (writeBoot v s).cfg = s.cfg := by
  unfold writeBoot; split <;> rfl

@[simp] theorem writeSvbk_cfg (v : Byte) (s : State) : (writeSvbk v s).cfg = s.cfg := by
  unfold writeSvbk; split <;> rfl

@[simp] theorem vdmaHBlank_cfg (s : State) : (vdmaHBlank s).cfg = s.cfg := by
  unfold vdmaHBlank; split <;> rfl

@[simp] theorem oamNext_cfg (s : State) : (oamNext s).cfg = s.cfg := by
  unfold oamNext; split <;> rfl

@[simp] theorem writePal_cfg (a : Word) (w : Width) (v : Word) (s : State) :
    (writePal a w v s).cfg = s.cfg := by
  unfold writePal; split <;> rfl

@[simp] theorem writeVram2_cfg (a : Word) (w : Width) (v : Word) (s : State) :
    (writeVram2 a w v s).cfg = s.cfg := by
  unfold writeVram2; repeat' (first | rfl | split)

@[simp] theorem writeOam2_cfg (a : Word) (w : Width) (v : Word) (s : State) :
    (writeOam2 a w v s).cfg = s.cfg := by
  unfold writeOam2; split <;> rfl

@[simp] theorem sniffStorage_cfg (o : Half) (v : Byte) (s : State) :
    (sniffStorage o v s).cfg = s.cfg := by
  unfold sniffStorage; split <;> rfl

@[simp] theorem appendBit_cfg (b : Bool) (s : State) : (appendBit b s).cfg = s.cfg := by
  unfold appendBit; split <;> rfl

@[simp] theorem rearm_cfg (k : Chan) (s : State) : (rearm k s).cfg = s.cfg := by
  unfold rearm; split <;> rfl

@[simp] theorem normalizedFor_cfg (s : State) : (normalizedFor s).cfg = s.cfg := by
  unfold normalizedFor; split <;> rfl

/-- The parameters are fixed. -/
theorem Move.cfg {s t : State} (h : Move s t) : t.cfg = s.cfg := by
  cases h with
  | control a v s g => exact writeControl_cfg a v s
  | nvs1 o v s g => exact writeNvs1_cfg o v s
  | dmaReg v s g => exact writeDma_cfg v s
  | vbk v s g => exact writeVbk_cfg v s
  | boot v s g => exact writeBoot_cfg v s
  | svbk v s g => exact writeSvbk_cfg v s
  | vdmaReg a v s t g h => exact writeVdmaReg_cfg h
  | hblank s g => exact vdmaHBlank_cfg s
  | oamUnit b s g h => exact oamNext_cfg _
  | pal a w v s g => exact writePal_cfg a w v s
  | vram2 a w v s g => exact writeVram2_cfg a w v s
  | oam2 a w v s g => exact writeOam2_cfg a w v s
  | storage o v s t g h => exact storageWriteByte_cfg h
  | sniffStorage o v s g h => exact sniffStorage_cfg o v s
  | appendBit b s g => exact appendBit_cfg b s
  | endStream s g => exact endStream_cfg s
  | unitEnd k w s g => rw [afterUnit_cfg, setChan_cfg]
  | rearm k s g => exact rearm_cfg k s
  | load f s t h => exact callLoad_cfg h
  | normalize s g => exact normalizedFor_cfg s
  | _ => first | simp | rfl

theorem Moves.cfg {s t : State} (h : Moves s t) : t.cfg = s.cfg := by
  induction h with
  | refl => rfl
  | tail _ h ih => rw [h.cfg, ih]

end Sys2Proof.Machine
end

