-- ==== Sys2Proof/Laws/ExecMoves.lean ====
section
/-! SUPPORT. Every operation is a sequence of moves. -/
namespace Sys2Proof.Machine

/-- Two sequences, one after the other, where the second needs the generation. -/
theorem Moves.andThen {s t u : State} (h : Moves s t) (k : t.cfg = s.cfg → Moves t u) : Moves s u :=
  h.trans (k h.cfg)

theorem drawByte_moves (s : State) : Moves s (drawByte s).2 := (Move.draw 1 s).one
theorem drawHalf_moves (s : State) : Moves s (drawHalf s).2 := (Move.draw 1 s).one
theorem drawWidth_moves (w : Width) (s : State) : Moves s (drawWidth w s).2 := (Move.draw 1 s).one

/-! ### Generation 1 -/

theorem ioExtRead8_moves (a : Half) (s : State) : Moves s (ioExtRead8 a s).2 :=
  (drawByte_moves s).trans (Move.event _ _ (by simp)).one

theorem ioRead1_moves (a : Half) (s : State) : Moves s (ioRead1 a s).2 := by
  unfold ioRead1; split <;> [exact Moves.same s; exact ioExtRead8_moves a s]

theorem regionRead1_moves (b : Half) (s : State) : Moves s (regionRead1 b s).2 := by
  unfold regionRead1
  repeat' split
  all_goals first
    | exact Moves.same s
    | exact drawByte_moves s
    | exact ioRead1_moves b s
    | exact ioExtRead8_moves b s

theorem read1_moves (m : Master) (a : Half) (s : State) : Moves s (read1 m a s).2 := by
  unfold read1 openRead1
  split
  · exact Moves.same s
  · split <;> [exact Moves.same s; exact regionRead1_moves _ s]

theorem ownedWrite_moves {a : Half} {v : Byte} {s t : State} (g : s.cfg.gen = .gen1)
    (h : ownedWrite a v s = .next t) : Moves s t := by
  unfold ownedWrite at h
  repeat' split at h
  · cases h; exact (Move.dmaReg v s g).one
  · cases h; exact (Move.vbk v s g).one
  · cases h; exact (Move.boot v s g).one
  · cases h; exact (Move.svbk v s g).one
  · exact (Move.vdmaReg a v s t g h).one

theorem ioWrite1_moves {a : Half} {v : Byte} {s t : State} (g : s.cfg.gen = .gen1)
    (h : ioWrite1 a v s = .next t) : Moves s t := by
  unfold ioWrite1 at h
  split at h
  · exact ownedWrite_moves g h
  · cases h; exact (Move.event _ s (by simp)).one

theorem writeRam_moves {a : Half} {v : Byte} {s t : State} (g : s.cfg.gen = .gen1)
    (h : writeRam a v s = .next t) : Moves s t := by
  unfold writeRam rtcWriteReg at h
  split at h
  · cases h; exact (Move.nvs1 _ v s g).one
  · split at h
    · rename_i hr; cases h; exact (Move.rtc _ v s g hr).one
    · cases h
  · cases h; exact Moves.same s

theorem regionWrite1_moves {b : Half} {v : Byte} {s t : State} (g : s.cfg.gen = .gen1)
    (h : regionWrite1 b v s = .next t) : Moves s t := by
  unfold regionWrite1 at h
  split at h
  · cases h; exact (Move.control b v s g).one
  split at h
  · cases h; exact (Move.vram _ v s g).one
  split at h
  · exact writeRam_moves g h
  split at h
  · cases h; exact (Move.wram _ v s g).one
  split at h
  · cases h; exact (Move.oam _ v s g).one
  split at h
  · cases h; exact Moves.same s
  split at h
  · exact ioWrite1_moves g h
  split at h
  · cases h; exact (Move.hram _ v s g).one
  · cases h; exact (Move.event _ s (by simp)).one

theorem write1_moves {m : Master} {a : Half} {v : Byte} {s t : State} (g : s.cfg.gen = .gen1)
    (h : write1 m a v s = .next t) : Moves s t := by
  unfold write1 at h
  split at h
  · cases h; exact Moves.same s
  · exact regionWrite1_moves g h

/-- A sequence of moves that leaves the DMA channels of generation 1 alone, as a read is. -/
theorem read1_keeps_dma (m : Master) (a : Half) (s : State) :
    (read1 m a s).2.g1 = s.g1 ∧ (read1 m a s).2.cfg = s.cfg ∧ (read1 m a s).2.host = s.host
      ∧ (read1 m a s).2.g2 = s.g2 := by
  unfold read1 openRead1 regionRead1 ioRead1 ioExtRead8 drawByte drawWord emit
  repeat' split
  all_goals exact ⟨rfl, rfl, rfl, rfl⟩

theorem oamTick1_moves (s : State) (g : s.cfg.gen = .gen1) : Moves s (oamTick1 s) := by
  unfold oamTick1
  split
  · exact Moves.same s
  · rename_i h
    have h1 : Moves s (oamCount s) := (Move.oamCount s g (by simp [h])).one
    split
    · exact h1.trans (Move.oamEnter (oamCount s) g h).one
    · exact h1
  · rename_i h
    have h1 : Moves s (oamCount s) := (Move.oamCount s g (by simp [h])).one
    split
    · refine h1.trans ((read1_moves .oam (oamAddr (oamCount s).g1.oamDma) (oamCount s)).trans ?_)
      have k := read1_keeps_dma .oam (oamAddr (oamCount s).g1.oamDma) (oamCount s)
      exact (Move.oamUnit _ _ (by rw [k.2.1]; exact g) (by rw [k.1]; exact h)).one
    · exact h1

theorem vdmaSrcRead_keeps (a : Half) (s : State) :
    Moves s (vdmaSrcRead a s).2 ∧ (vdmaSrcRead a s).2.g1 = s.g1 ∧ (vdmaSrcRead a s).2.cfg = s.cfg := by
  unfold vdmaSrcRead
  split
  · exact ⟨drawByte_moves s, rfl, rfl⟩
  · have k := read1_keeps_dma .vdma a s
    exact ⟨read1_moves .vdma a s, k.1, k.2.1⟩

theorem vdmaByte_moves (s : State) (g : s.cfg.gen = .gen1) (h : s.g1.vdma.state = .active) :
    Moves s (vdmaByte s) ∧ (vdmaByte s).cfg.gen = .gen1 ∧ (vdmaByte s).g1.vdma.state = .active := by
  have k := vdmaSrcRead_keeps s.g1.vdma.src s
  have g' : (vdmaSrcRead s.g1.vdma.src s).2.cfg.gen = .gen1 := by rw [k.2.2]; exact g
  have h' : (vdmaSrcRead s.g1.vdma.src s).2.g1.vdma.state = .active := by rw [k.2.1]; exact h
  refine ⟨k.1.trans (Move.vdmaStore _ _ g' h').one, ?_, ?_⟩
  · exact g'
  · exact h'

theorem vdmaBytes_moves (n : Nat) : ∀ s : State, s.cfg.gen = .gen1 → s.g1.vdma.state = .active →
    Moves s (vdmaBytes n s) ∧ (vdmaBytes n s).cfg.gen = .gen1
      ∧ (vdmaBytes n s).g1.vdma.state = .active := by
  induction n with
  | zero => exact fun s g h => ⟨Moves.same s, g, h⟩
  | succ n ih =>
    intro s g h
    have k := vdmaByte_moves s g h
    have i := ih _ k.2.1 k.2.2
    exact ⟨k.1.trans i.1, i.2⟩

theorem vdmaTick1_moves (s : State) (g : s.cfg.gen = .gen1) : Moves s (vdmaTick1 s) := by
  unfold vdmaTick1
  split
  · rename_i h
    have h1 : Moves s (vdmaCount s) := (Move.vdmaCount s g h).one
    split
    · have k := vdmaBytes_moves 16 (vdmaCount s) g h
      unfold vdmaBlock
      generalize vdmaBytes 16 (vdmaCount s) = u at k
      rw [← k.1.cfg]
      exact h1.trans (k.1.trans (Move.vdmaBlockEnd u k.2.1 k.2.2).one)
    · exact h1
  · exact Moves.same s

theorem gen1Tick1_moves (s : State) (g : s.cfg.gen = .gen1) : Moves s (gen1Tick1 s) := by
  unfold gen1Tick1
  split
  · exact (oamTick1_moves s g).andThen fun e => vdmaTick1_moves _ (by rw [e]; exact g)
  · exact oamTick1_moves s g

/-! ### Generation 2 -/

theorem streamBoundary_moves (k : Chan) (s : State) (g : s.cfg.gen = .gen2) :
    Moves s (streamBoundary k s) := by
  unfold streamBoundary
  split
  · exact (Move.endStream s g).one.trans (Move.wrote k false _ (by simpa using g)).one
  · exact Moves.same s

theorem dmaHalt_moves (k : Chan) (s : State) (g : s.cfg.gen = .gen2) : Moves s (dmaHalt k s) :=
  (streamBoundary_moves k s g).trans (Move.stopped k _ (by simpa using g)).one

theorem dmaDisable_moves (k : Chan) (s : State) (g : s.cfg.gen = .gen2) : Moves s (dmaDisable k s) := by
  unfold dmaDisable
  split
  · exact dmaHalt_moves k s g
  · exact dmaHalt_moves k s g
  · rename_i h; exact (Move.stop k s g h).one
  · exact Moves.same s

theorem enableEdge_moves (k : Chan) (old : Bool) (s : State) (g : s.cfg.gen = .gen2) :
    Moves s (enableEdge k old s) := by
  unfold enableEdge
  split
  · rename_i h; exact (Move.enable k s g h.2).one
  · split
    · exact dmaDisable_moves k s g
    · exact Moves.same s

theorem dmaCellWrite_moves {k : Chan} {x : DmaCell} {d mask : Half} {s t : State}
    (g : s.cfg.gen = .gen2) (h : dmaCellWrite k x d mask s = .next t) : Moves s t := by
  unfold dmaCellWrite dmaRegStore at h
  split at h
  · cases h
  · obtain ⟨r, hr, ht⟩ := bindR_eq_next.1 h
    cases ht
    exact (Move.cellStore k x d mask r s g hr).one.trans (enableEdge_moves k _ _ g)

theorem ioWrite2_moves {u : Word} {d mask : Half} {s t : State} (g : s.cfg.gen = .gen2)
    (h : ioWrite2 u d mask s = .next t) : Moves s t := by
  unfold ioWrite2 at h
  split at h
  · exact dmaCellWrite_moves g h
  · cases h; exact (Move.event _ s (by simp)).one

theorem eepromBitIn_moves (k : Chan) (d : Half) (s : State) (g : s.cfg.gen = .gen2) :
    Moves s (eepromBitIn k d s) := by
  unfold eepromBitIn
  have h := (Move.appendBit (d.getLsbD 0) s g).one
  exact h.andThen fun e => (Move.wrote k true _ (by rw [e]; exact g)).one

theorem windowBit_moves (k : Chan) (d : Half) (s : State) (g : s.cfg.gen = .gen2) :
    Moves s (windowBit k d s) := by
  unfold windowBit
  split
  · rename_i h
    exact (Move.sniffEeprom s g h).one.trans (eepromBitIn_moves k d _ g)
  · exact eepromBitIn_moves k d s g

theorem cartWrite16_moves {m : Master} {u : Word} {d mask : Half} {s t : State}
    (g : s.cfg.gen = .gen2) (h : cartWrite16 m u d mask s = .next t) : Moves s t := by
  unfold cartWrite16 at h
  split at h
  · split at h
    all_goals first
      | (cases h; exact windowBit_moves _ d s g)
      | (cases h; exact Moves.same s)
      | cases h
  · cases h; exact Moves.same s

theorem compose16W_moves {f : Word → Half → Half → State → Res State}
    (hf : ∀ (u : Word) (d mask : Half) (s t : State), s.cfg.gen = .gen2 → f u d mask s = .next t → Moves s t)
    {a : Word} {w : Width} {v : Word} {s t : State} (g : s.cfg.gen = .gen2)
    (h : compose16W f a w v s = .next t) : Moves s t := by
  unfold compose16W at h
  split at h
  · exact hf _ _ _ _ _ g h
  · exact hf _ _ _ _ _ g h
  · obtain ⟨r, hr, ht⟩ := bindR_eq_next.1 h
    exact (hf _ _ _ _ _ g hr).andThen fun e => hf _ _ _ _ _ (by rw [e]; exact g) ht

theorem storageWrite_moves {a : Word} {w : Width} {v : Word} {s t : State} (g : s.cfg.gen = .gen2)
    (h : storageWrite a w v s = .next t) : Moves s t := by
  unfold storageWrite resolvedFor at h
  split at h
  · rename_i hu
    refine ((Move.sniffStorage (storageOff a) (windowByte a w v) s g hu).one).andThen fun e => ?_
    exact (Move.storage _ _ _ _ (by rw [e]; exact g) h).one
  · exact (Move.storage _ _ _ _ g h).one

theorem lowWrite2_moves (a : Word) (w : Width) (v : Word) (s : State) (g : s.cfg.gen = .gen2) :
    Moves s (lowWrite2 a w v s) := by
  unfold lowWrite2
  split
  · exact (Move.ewram _ w v s g).one
  · split
    · exact (Move.iwram _ w v s g).one
    · exact Moves.same s

theorem midWrite2_moves {a : Word} {w : Width} {v : Word} {s t : State} (g : s.cfg.gen = .gen2)
    (h : midWrite2 a w v s = .next t) : Moves s t := by
  unfold midWrite2 at h
  split at h
  · split at h
    · exact compose16W_moves (fun _ _ _ _ _ => ioWrite2_moves) g h
    · cases h; exact Moves.same s
  split at h
  · cases h; exact (Move.pal _ w v s g).one
  split at h
  · cases h; exact (Move.vram2 _ w v s g).one
  · cases h; exact (Move.oam2 _ w v s g).one

theorem write2_moves {m : Master} {a : Word} {w : Width} {v : Word} {s t : State}
    (g : s.cfg.gen = .gen2) (h : write2 m a w v s = .next t) : Moves s t := by
  unfold write2 at h
  split at h
  · cases h; exact lowWrite2_moves a w v s g
  split at h
  · exact midWrite2_moves g h
  split at h
  · exact compose16W_moves (fun _ _ _ _ _ => cartWrite16_moves) g h
  split at h
  · exact storageWrite_moves g h
  · cases h; exact Moves.same s

theorem compose16_moves {f : Word → State → Half × State}
    (hf : ∀ (u : Word) (s : State), s.cfg.gen = .gen2 → Moves s (f u s).2) (a : Word) (w : Width)
    (s : State) (g : s.cfg.gen = .gen2) : Moves s (compose16 f a w s).2 := by
  cases w
  · exact hf _ s g
  · exact hf _ s g
  · exact (hf a s g).andThen fun e => hf _ _ (by rw [e]; exact g)

theorem ioRead2_moves (u : Word) (s : State) : Moves s (ioRead2 u s).2 := by
  unfold ioRead2 dmaRegRead dmaCellRead ioExtRead16
  split
  · split <;> [exact Moves.same s; exact drawHalf_moves s]
  · exact (drawHalf_moves s).trans (Move.event _ _ (by simp)).one

theorem cartRead16_moves (u : Word) (s : State) (g : s.cfg.gen = .gen2) :
    Moves s (cartRead16 u s).2 := by
  unfold cartRead16
  split
  · rename_i e h
    split <;> [exact (Move.drain e s g h).one; exact Moves.same s]
  · exact Moves.same s

theorem unmapped_moves (m : Master) (a : Word) (w : Width) (s : State) :
    Moves s (unmapped m a w s).2 := by
  unfold unmapped; split <;> [exact Moves.same s; exact drawWidth_moves w s]

theorem biosRead_moves (m : Master) (k : AccessKind) (a : Word) (w : Width) (s : State)
    (g : s.cfg.gen = .gen2) : Moves s (biosRead m k a w s).2 := by
  unfold biosRead
  split
  · split
    · cases k <;> [exact (Move.bios _ s g).one; exact Moves.same s]
    · exact Moves.same s
  · exact drawWidth_moves w s

theorem read2_moves (m : Master) (k : AccessKind) (a : Word) (w : Width) (s : State)
    (g : s.cfg.gen = .gen2) : Moves s (read2 m k a w s).2 := by
  unfold read2 lowRead2 midRead2
  repeat' split
  all_goals first
    | exact Moves.same s
    | exact biosRead_moves _ _ _ _ s g
    | exact unmapped_moves _ _ _ s
    | exact compose16_moves (fun u s _ => ioRead2_moves u s) _ _ s g
    | exact compose16_moves cartRead16_moves _ _ s g

theorem unitRead_moves (k : Chan) (s : State) (g : s.cfg.gen = .gen2) : Moves s (unitRead k s).2 := by
  unfold unitRead; split <;> [exact drawWidth_moves _ s; exact read2_moves _ _ _ _ s g]

theorem dmaUnit_moves {k : Chan} {s t : State} (g : s.cfg.gen = .gen2) (h : dmaUnit k s = .next t) :
    Moves s t := by
  unfold dmaUnit unitWrite at h
  split at h
  · cases h
  · obtain ⟨u, hu, ht⟩ := bindR_eq_next.1 h
    cases ht
    refine (unitRead_moves k s g).andThen fun e1 => ?_
    have g1 : (unitRead k s).2.cfg.gen = .gen2 := by rw [e1]; exact g
    exact (write2_moves g1 hu).andThen fun e2 => (Move.unitEnd k _ _ (by rw [e2]; exact g1)).one

theorem winner_active {s : State} {k : Chan} (h : winner s.g2.dma = some k) :
    (chan s k).state = .active := by
  unfold winner at h
  repeat' split at h
  all_goals first | (cases h; assumption) | cases h

theorem runActive_moves {s t : State} (g : s.cfg.gen = .gen2) (h : runActive s = .next t) :
    Moves s t := by
  unfold runActive runWinner at h
  split at h
  · rename_i k hk
    have h1 : Moves s (chanCount k s) := (Move.chanCount k s g (winner_active hk)).one
    split at h
    · obtain ⟨u, hu, ht⟩ := bindR_eq_next.1 h
      cases ht
      have h2 : Moves (chanCount k s) u := dmaUnit_moves (s := chanCount k s) g hu
      refine h1.trans (h2.andThen fun e => (Move.rearm k u ?_).one)
      rw [e]; exact g
    · cases h; exact h1
  · cases h; exact Moves.same s

theorem runStarting_moves (k : Chan) (was : Bool) (s : State) (g : s.cfg.gen = .gen2) :
    Moves s (runStarting k was s) := by
  unfold runStarting
  split
  · rename_i h; exact (Move.startCount k s g h.2).one
  · exact Moves.same s

theorem runStartings_moves (s₀ s : State) (g : s.cfg.gen = .gen2) : Moves s (runStartings s₀ s) := by
  have step : ∀ (k : Chan) (b : Bool) (u : State), Moves s u → Moves s (runStarting k b u) :=
    fun k b u hu => hu.andThen fun e => runStarting_moves k b u (by rw [e]; exact g)
  exact step _ _ _ (step _ _ _ (step _ _ _ (step _ _ _ (Moves.same s))))

theorem dmaTick1_moves {s t : State} (g : s.cfg.gen = .gen2) (h : dmaTick1 s = .next t) : Moves s t := by
  obtain ⟨u, hu, ht⟩ := bindR_eq_next.1 h
  cases ht
  exact (runActive_moves g hu).andThen fun e => runStartings_moves _ u (by rw [e]; exact g)

/-! ### The calls -/

theorem tick1_moves {s t : State} (h : tick1 s = .next t) : Moves s t := by
  obtain ⟨u, hu, ht⟩ := bindR_eq_next.1 h
  cases ht
  have hm : Moves s u := by
    unfold enginesTick1 at hu
    split at hu
    · rename_i g; cases hu; exact gen1Tick1_moves s g
    · rename_i g; exact dmaTick1_moves g hu
  refine hm.trans ?_
  unfold completionTick1
  split
  · exact Moves.same u
  · rename_i g
    split <;> [exact (Move.storageTick u g).one; exact Moves.same u]

theorem ticks_moves (n : Nat) : ∀ {s t : State}, ticks n s = .next t → Moves s t := by
  induction n with
  | zero => intro s t h; cases h; exact Moves.same s
  | succ n ih =>
    intro s t h
    obtain ⟨u, hu, ht⟩ := bindR_eq_next.1 h
    exact (tick1_moves hu).trans (ih ht)

theorem callTick_moves {c : Int} {s t : State} (h : callTick c s = .next t) : Moves s t := by
  unfold callTick at h
  split at h
  · cases h
  · exact ticks_moves _ h

theorem callTrigger_moves {e : Event} {s t : State} (h : callTrigger e s = .next t) : Moves s t := by
  unfold callTrigger trigger1 at h
  split at h
  · rename_i g
    cases e
    · cases h; exact Moves.same s
    · simp only at h
      split at h
      · cases h; exact (Move.hblank s g).one
      · cases h; exact Moves.same s
    · cases h
    · cases h
  · rename_i g; cases h; exact (Move.trigger e s g).one

theorem busRead_moves (m : Master) (k : AccessKind) (a : Word) (w : Width) (s : State) :
    Moves s (busRead m k a w s).2 := by
  unfold busRead
  split
  · exact read1_moves m _ s
  · rename_i g; exact read2_moves m k a w s g

theorem callRead_moves {m : Master} {k : AccessKind} {a : Word} {w : Width} {s t : State}
    (h : callRead m k a w s = .next t) : Moves s t := by
  unfold callRead at h
  split at h
  · cases h
  · split at h
    · cases h
    · cases h; exact (busRead_moves m k a w s).trans (Move.result _ _).one

theorem callWrite_moves {m : Master} {a : Word} {w : Width} {v : Word} {s t : State}
    (h : callWrite m a w v s = .next t) : Moves s t := by
  unfold callWrite busWrite at h
  split at h
  · cases h
  · split at h
    · cases h
    · split at h
      · rename_i g; exact write1_moves g h
      · rename_i g; exact write2_moves g h

theorem callSerialize_moves {b : Bool} {s t : State} (h : callSerialize b s = .next t) : Moves s t := by
  unfold callSerialize at h
  split at h
  · cases h
  · cases h
    refine Moves.andThen (t := (serializeFile s).2) ?_ fun _ => (Move.result _ _).one
    unfold serializeFile serialize1
    split
    · rename_i g
      split <;> [exact Moves.same s; exact (Move.normalize s g).one]
    · exact Moves.same s

theorem appendBits_moves (l : List Bool) : ∀ s : State, s.cfg.gen = .gen2 → Moves s (appendBits l s) := by
  induction l with
  | nil => exact fun s _ => Moves.same s
  | cons b r ih =>
    intro s g
    exact ((Move.appendBit b s g).one).andThen fun e => ih _ (by rw [e]; exact g)

theorem callStream_moves {l : List Bool} {s t : State} (h : callStream l s = .next t) : Moves s t := by
  unfold callStream at h
  split at h
  · cases h; exact Moves.same s
  split at h
  · cases h
  · rename_i g
    cases h
    have h1 : Moves s (eepromSelected s) := by
      unfold eepromSelected
      split
      · rename_i hu; exact (Move.sniffEeprom s g hu).one
      · exact Moves.same s
    refine h1.andThen fun e1 => ?_
    have g1 : (eepromSelected s).cfg.gen = .gen2 := by rw [e1]; exact g
    exact (appendBits_moves l _ g1).andThen fun e2 => (Move.endStream _ (by rw [e2]; exact g1)).one

/-- Every operation is a sequence of moves. -/
theorem exec_moves {i : Instr} {s t : State} (h : exec i s = .next t) : Moves s t := by
  cases i with
  | storageSniff a w v => cases v <;> [exact callRead_moves h; exact callWrite_moves h]
  | eepromBitWrite k a d => exact callWrite_moves (m := .chan k) h
  | eepromSniff k a d => exact callWrite_moves (m := .chan k) h
  | eepromRead6 x stop => exact callStream_moves (l := readBits x stop) h
  | eepromRead14 x stop => exact callStream_moves (l := readBits x stop) h
  | eepromWrite6 x d stop => exact callStream_moves (l := writeBits x d stop) h
  | eepromWrite14 x d stop => exact callStream_moves (l := writeBits x d stop) h
  | loadGen1 f => exact (Move.load f s t h).one
  | loadGen2 f => exact (Move.load f s t h).one
  | _ => first
    | exact callWrite_moves h
    | exact callRead_moves h
    | exact callTick_moves h
    | exact callTrigger_moves h
    | exact callSerialize_moves h

/-- Every step is a sequence of moves, after the call is taken and before the state is marked. -/
theorem step_moves {s t : State} (h : step s = .next t) :
    s = t ∨ ∃ p rest u, s.pending = p :: rest ∧ callRefusal p s = none ∧ Moves (takeCall p rest s) u
      ∧ t = afterCall u := by
  unfold step stepState runCall runFrame at h
  split at h
  · cases h; exact .inl rfl
  · rename_i p rest hp
    split at h
    · cases h
    · rename_i hr
      split at h
      · obtain ⟨u, hu, ht⟩ := bindR_eq_next.1 h
        cases ht
        exact .inr ⟨p, rest, u, hp, hr, exec_moves hu, rfl⟩
      · unfold notDecoded at h
        split at h
        · repeat' split at h
          all_goals cases h
        · obtain ⟨u, hu, ht⟩ := bindR_eq_next.1 h
          cases ht
          exact .inr ⟨p, rest, u, hp, hr, callStream_moves hu, rfl⟩
        · cases h

/-- A call that is let through has a wall clock no earlier than the last one's. -/
theorem callRefusal_none {p : Pending} {s : State} (h : callRefusal p s = none) :
    constructionRefusal s.cfg = none ∧ s.host.now ≤ p.host.now := by
  unfold callRefusal at h
  split at h
  · cases h
  · rename_i hc
    split at h
    · cases h
    · exact ⟨hc, by omega⟩

/-- A property that every move keeps is kept along a sequence of moves. -/
theorem moves_keep {P : State → Prop} (hP : ∀ s t, Move s t → P s → P t) {s t : State}
    (hm : Moves s t) (hs : P s) : P t := by
  induction hm with
  | refl => exact hs
  | tail _ hm ih => exact hP _ _ hm ih

/-- A property that every move keeps is kept by every operation. -/
theorem exec_keeps {P : State → Prop} (hP : ∀ s t, Move s t → P s → P t) {i : Instr} {s t : State}
    (h : exec i s = .next t) (hs : P s) : P t := moves_keep hP (exec_moves h) hs

/-- A property that every move keeps, and that taking a call and marking the state keep, is kept by
every step. -/
theorem step_keeps {P : State → Prop} (hP : ∀ s t, Move s t → P s → P t)
    (hTake : ∀ (p : Pending) (rest : List Pending) (s : State), s.host.now ≤ p.host.now → P s →
      P (takeCall p rest s))
    (hAfter : ∀ s, P s → P (afterCall s)) {s t : State} (h : step s = .next t) (hs : P s) : P t := by
  obtain rfl | ⟨p, rest, u, -, hr, hm, rfl⟩ := step_moves h
  · exact hs
  · exact hAfter u (moves_keep hP hm (hTake p rest s (callRefusal_none hr).2 hs))

end Sys2Proof.Machine
end

