-- ==== Sys2Proof/Laws/Frames.lean ====
section
/-! SUPPORT. What the end of an EEPROM stream, the end of a DMA unit and a storage write leave alone. -/
namespace Sys2Proof.Machine

/-- The end of a stream changes the storage device and counts draws, nothing else. -/
theorem runStream_frame (l : List Bool) (e : Eeprom) (s : State) :
    runStream l e s = { s with draws := (runStream l e s).draws, g2.nvs2 := (runStream l e s).g2.nvs2 } := by
  unfold runStream runCommand stageRead startWrite drawBits
  repeat' (first | rfl | split)

theorem endStream_frame (s : State) :
    endStream s = { s with draws := (endStream s).draws, g2.nvs2 := (endStream s).g2.nvs2 } := by
  unfold endStream
  split
  · exact runStream_frame _ _ s
  · rfl

@[simp] theorem endStream_g1 (s : State) : (endStream s).g1 = s.g1 := by rw [endStream_frame]
@[simp] theorem endStream_host (s : State) : (endStream s).host = s.host := by rw [endStream_frame]
@[simp] theorem endStream_outs (s : State) : (endStream s).outs = s.outs := by rw [endStream_frame]
@[simp] theorem endStream_dma (s : State) : (endStream s).g2.dma = s.g2.dma := by rw [endStream_frame]
@[simp] theorem endStream_chan (s : State) (k : Chan) : chan (endStream s) k = chan s k := by
  simp [chan]

@[simp] theorem streamBoundary_g1 (k : Chan) (s : State) : (streamBoundary k s).g1 = s.g1 := by
  unfold streamBoundary; split <;> simp
@[simp] theorem streamBoundary_host (k : Chan) (s : State) : (streamBoundary k s).host = s.host := by
  unfold streamBoundary; split <;> simp
@[simp] theorem streamBoundary_outs (k : Chan) (s : State) : (streamBoundary k s).outs = s.outs := by
  unfold streamBoundary; split <;> simp

/-- A stream boundary lowers the channel's mark and changes no channel otherwise. -/
theorem streamBoundary_dma (k : Chan) (s : State) :
    (streamBoundary k s).g2.dma
      = s.g2.dma.set k { chan s k with eepromWrote := false } := by
  unfold streamBoundary
  split
  · simp [setChan]
  · rename_i h
    cases k <;> simp_all [chan, Channels.get, Channels.set]
    all_goals rw [← h]

@[simp] theorem requestIfIrq_g1 (k : Chan) (s : State) : (requestIfIrq k s).g1 = s.g1 := by
  unfold requestIfIrq requestInterrupt; split <;> simp
@[simp] theorem requestIfIrq_g2 (k : Chan) (s : State) : (requestIfIrq k s).g2 = s.g2 := by
  unfold requestIfIrq requestInterrupt; split <;> simp
@[simp] theorem requestIfIrq_host (k : Chan) (s : State) : (requestIfIrq k s).host = s.host := by
  unfold requestIfIrq requestInterrupt; split <;> simp

@[simp] theorem dmaHalt_g1 (k : Chan) (s : State) : (dmaHalt k s).g1 = s.g1 := by simp [dmaHalt]
@[simp] theorem dmaHalt_host (k : Chan) (s : State) : (dmaHalt k s).host = s.host := by simp [dmaHalt]
@[simp] theorem dmaHalt_outs (k : Chan) (s : State) : (dmaHalt k s).outs = s.outs := by simp [dmaHalt]

@[simp] theorem dmaComplete_g1 (k : Chan) (s : State) : (dmaComplete k s).g1 = s.g1 := by
  simp [dmaComplete, beforeReload]
@[simp] theorem dmaComplete_host (k : Chan) (s : State) : (dmaComplete k s).host = s.host := by
  simp [dmaComplete, beforeReload]

@[simp] theorem afterUnit_g1 (k : Chan) (s : State) : (afterUnit k s).g1 = s.g1 := by
  unfold afterUnit; repeat' (first | simp | split)
@[simp] theorem afterUnit_host (k : Chan) (s : State) : (afterUnit k s).host = s.host := by
  unfold afterUnit; repeat' (first | simp | split)

/-- A write of the storage window changes the storage device only. -/
theorem storageWriteByte_frame {o : Half} {v : Byte} {s t : State}
    (h : storageWriteByte o v s = .next t) : t = { s with g2.nvs2 := t.g2.nvs2 } := by
  unfold storageWriteByte at h
  split at h
  all_goals first
    | (cases h; rfl)
    | (obtain ⟨d, -, hd⟩ := bindR_eq_next.1 h; cases hd; rfl)

end Sys2Proof.Machine
end

