-- ==== Sys2Proof/Laws/Memory.lean ====
section
/-! SUPPORT. The laws of byte arrays: a read after a write, and that every operation keeps the canonical
form and, but for `append` and `cut`, the size. -/
namespace Sys2Proof

/-! ### Cells -/

/-- Every index of a list of cells is at least `n`. -/
def above (n : Nat) (l : List Host.Cell) : Prop := ∀ c ∈ l, n ≤ c.1

/-- `rising`, as the core library's pairwise order. -/
theorem rising_iff (l : List Host.Cell) : rising l = true ↔ l.Pairwise fun c d => c.1 < d.1 := by
  induction l with
  | nil => simp [rising]
  | cons c l ih =>
    cases l with
    | nil => simp [rising]
    | cons d r =>
      simp only [rising, Bool.and_eq_true, decide_eq_true_eq, ih]
      constructor
      · rintro ⟨h, hp⟩
        refine List.Pairwise.cons ?_ hp
        intro e he
        rcases List.mem_cons.1 he with rfl | he
        · exact h
        · exact Nat.lt_trans h ((List.pairwise_cons.1 hp).1 e he)
      · intro hp
        have := List.pairwise_cons.1 hp
        exact ⟨this.1 d List.mem_cons_self, this.2⟩

theorem lookupCell_insert_same (l : List Host.Cell) (i : Nat) (v : Byte) :
    lookupCell (insertCell l i v) i = some v := by
  induction l with
  | nil => simp [insertCell, lookupCell]
  | cons c r ih =>
    unfold insertCell
    split
    · simp [lookupCell]
    · split
      · simp [lookupCell]
      · rename_i h1 h2
        simp [lookupCell, h1, h2, ih]

theorem lookupCell_insert_other (l : List Host.Cell) (i j : Nat) (v : Byte) (h : j ≠ i) :
    lookupCell (insertCell l i v) j = lookupCell l j := by
  induction l with
  | nil =>
    simp only [insertCell, lookupCell]
    split <;> rename_i h' <;> [exact absurd h'.symm h; (split <;> rfl)]
  | cons c r ih =>
    unfold insertCell
    split
    · rename_i hc
      have hj : ¬ i = j := fun e => h e.symm
      simp only [lookupCell, hc, if_neg hj]
    · split
      · rename_i h1 h2
        simp only [lookupCell]
        split <;> rename_i h3
        · exact absurd h3.symm h
        · split <;> rename_i h4
          · have hc : ¬ c.1 = j := by omega
            have hj : j < c.1 := by omega
            simp [hc, hj]
          · rfl
      · simp only [lookupCell, ih]

theorem lookupCell_none_of_above {l : List Host.Cell} {i : Nat} (h : above (i + 1) l) :
    lookupCell l i = none := by
  cases l with
  | nil => rfl
  | cons c r =>
    have := h c List.mem_cons_self
    have h1 : ¬ c.1 = i := by omega
    have h2 : i < c.1 := by omega
    simp [lookupCell, h1, h2]

theorem lookupCell_erase_same {l : List Host.Cell} (hl : l.Pairwise fun c d => c.1 < d.1) (i : Nat) :
    lookupCell (eraseCell l i) i = none := by
  induction l with
  | nil => rfl
  | cons c r ih =>
    have hp := List.pairwise_cons.1 hl
    unfold eraseCell
    split
    · rename_i hc
      exact lookupCell_none_of_above fun d hd => by have := hp.1 d hd; omega
    · split
      · rename_i h1 h2
        simp [lookupCell, h1, h2]
      · rename_i h1 h2
        simp [lookupCell, h1, h2, ih hp.2]

theorem lookupCell_erase_other {l : List Host.Cell} (hl : l.Pairwise fun c d => c.1 < d.1) (i j : Nat)
    (h : j ≠ i) : lookupCell (eraseCell l i) j = lookupCell l j := by
  induction l with
  | nil => rfl
  | cons c r ih =>
    have hp := List.pairwise_cons.1 hl
    unfold eraseCell
    split
    · rename_i hc
      simp only [lookupCell]
      split <;> rename_i h1
      · omega
      · split <;> rename_i h2
        · exact lookupCell_none_of_above fun d hd => by have := hp.1 d hd; omega
        · rfl
    · split
      · rfl
      · simp only [lookupCell, ih hp.2]

theorem mem_insertCell {l : List Host.Cell} {i : Nat} {v : Byte} {c : Host.Cell}
    (h : c ∈ insertCell l i v) : c = (i, v) ∨ c ∈ l := by
  induction l with
  | nil => simpa [insertCell] using h
  | cons d r ih =>
    unfold insertCell at h
    split at h
    · rcases List.mem_cons.1 h with h | h
      · exact .inl h
      · exact .inr (List.mem_cons_of_mem _ h)
    · split at h
      · rcases List.mem_cons.1 h with h | h
        · exact .inl h
        · exact .inr h
      · rcases List.mem_cons.1 h with h | h
        · exact .inr (h ▸ List.mem_cons_self)
        · exact (ih h).imp id (List.mem_cons_of_mem _)

theorem mem_eraseCell {l : List Host.Cell} {i : Nat} {c : Host.Cell} (h : c ∈ eraseCell l i) :
    c ∈ l := by
  induction l with
  | nil => exact h
  | cons d r ih =>
    unfold eraseCell at h
    split at h
    · exact List.mem_cons_of_mem _ h
    · split at h
      · exact h
      · rcases List.mem_cons.1 h with h | h
        · exact h ▸ List.mem_cons_self
        · exact List.mem_cons_of_mem _ (ih h)

theorem pairwise_insertCell {l : List Host.Cell} (hl : l.Pairwise fun c d => c.1 < d.1) (i : Nat)
    (v : Byte) : (insertCell l i v).Pairwise fun c d => c.1 < d.1 := by
  induction l with
  | nil => simp [insertCell]
  | cons c r ih =>
    have hp := List.pairwise_cons.1 hl
    unfold insertCell
    split
    · rename_i hc
      exact List.Pairwise.cons (fun d hd => by have := hp.1 d hd; simp only; omega) hp.2
    · split
      · rename_i h1 h2
        refine List.Pairwise.cons (fun d hd => ?_) hl
        rcases List.mem_cons.1 hd with rfl | hd
        · exact h2
        · exact Nat.lt_trans h2 (hp.1 d hd)
      · rename_i h1 h2
        refine List.Pairwise.cons (fun d hd => ?_) (ih hp.2)
        rcases mem_insertCell hd with rfl | hd
        · simp only; omega
        · exact hp.1 d hd

theorem pairwise_eraseCell {l : List Host.Cell} (hl : l.Pairwise fun c d => c.1 < d.1) (i : Nat) :
    (eraseCell l i).Pairwise fun c d => c.1 < d.1 := by
  induction l with
  | nil => exact hl
  | cons c r ih =>
    have hp := List.pairwise_cons.1 hl
    unfold eraseCell
    split
    · exact hp.2
    · split
      · exact hl
      · exact List.Pairwise.cons (fun d hd => hp.1 d (mem_eraseCell hd)) (ih hp.2)

theorem cellsFrom_range {f : Fill} {l : List Byte} {i : Nat} {c : Host.Cell}
    (h : c ∈ cellsFrom f i l) : i ≤ c.1 ∧ c.1 < i + l.length ∧ Fill.holds f c.2 = false := by
  induction l generalizing i with
  | nil => cases h
  | cons v r ih =>
    simp only [cellsFrom] at h
    split at h
    · obtain ⟨h1, h2, h3⟩ := ih h
      simp only [List.length_cons]
      exact ⟨by omega, by omega, h3⟩
    · rename_i hv
      rcases List.mem_cons.1 h with rfl | h
      · simp only [List.length_cons]
        exact ⟨Nat.le_refl _, by omega, by simpa using hv⟩
      · obtain ⟨h1, h2, h3⟩ := ih h
        simp only [List.length_cons]
        exact ⟨by omega, by omega, h3⟩

theorem pairwise_cellsFrom (f : Fill) (l : List Byte) (i : Nat) :
    (cellsFrom f i l).Pairwise fun c d => c.1 < d.1 := by
  induction l generalizing i with
  | nil => simp [cellsFrom]
  | cons v r ih =>
    simp only [cellsFrom]
    split
    · exact ih _
    · exact List.Pairwise.cons (fun d hd => by have := cellsFrom_range hd; simp only; omega) (ih _)

theorem lookupCell_cellsFrom (f : Fill) (l : List Byte) (i j : Nat) :
    (lookupCell (cellsFrom f i l) j).getD (f.value j)
      = if h : i ≤ j ∧ j < i + l.length then l[j - i]'(by omega) else f.value j := by
  induction l generalizing i with
  | nil =>
    simp only [cellsFrom, lookupCell, List.length_nil]
    split <;> [omega; rfl]
  | cons v r ih =>
    simp only [cellsFrom]
    split
    · rename_i hv
      rw [ih]
      by_cases h1 : j = i
      · subst h1
        have : f.value j = v := by
          cases f <;> simp_all [Fill.holds, Fill.value]
        simp [this]
      · by_cases h2 : i ≤ j ∧ j < i + (v :: r).length
        · have h3 : i + 1 ≤ j ∧ j < i + 1 + r.length := by simp only [List.length_cons] at h2; omega
          rw [dif_pos h3, dif_pos h2]
          have : j - i = j - (i + 1) + 1 := by omega
          simp [this]
        · have h3 : ¬ (i + 1 ≤ j ∧ j < i + 1 + r.length) := by
            simp only [List.length_cons] at h2; omega
          rw [dif_neg h3, dif_neg h2]
    · simp only [lookupCell]
      by_cases h1 : i = j
      · subst h1; simp
      · by_cases h2 : j < i
        · simp only [if_neg h1, if_pos h2]
          have : ¬ (i ≤ j ∧ j < i + (v :: r).length) := by omega
          rw [dif_neg this]; rfl
        · simp only [if_neg h1, if_neg h2]
          rw [ih]
          by_cases h3 : i + 1 ≤ j ∧ j < i + 1 + r.length
          · have h4 : i ≤ j ∧ j < i + (v :: r).length := by simp only [List.length_cons]; omega
            rw [dif_pos h3, dif_pos h4]
            have : j - i = j - (i + 1) + 1 := by omega
            simp [this]
          · have h4 : ¬ (i ≤ j ∧ j < i + (v :: r).length) := by
              simp only [List.length_cons]; omega
            rw [dif_neg h3, dif_neg h4]

/-! ### The canonical form -/

theorem Image.wf_iff (m : Image) : m.wf = true ↔
    (m.cells.Pairwise fun c d => c.1 < d.1)
      ∧ ∀ c ∈ m.cells, c.1 < m.size ∧ Fill.holds m.fill c.2 = false := by
  simp [Image.wf, rising_iff, List.all_eq_true]

@[simp] theorem Image.write_size (m : Image) (i : Nat) (v : Byte) : (m.write i v).size = m.size := by
  unfold Image.write; split <;> [split <;> rfl; rfl]

@[simp] theorem Image.write_fill (m : Image) (i : Nat) (v : Byte) : (m.write i v).fill = m.fill := by
  unfold Image.write; split <;> [split <;> rfl; rfl]

@[simp] theorem Image.setRange_size (m : Image) (i n : Nat) (v : Byte) :
    (m.setRange i n v).size = m.size := rfl

@[simp] theorem Image.setRange_fill (m : Image) (i n : Nat) (v : Byte) :
    (m.setRange i n v).fill = m.fill := rfl

@[simp] theorem Image.filled_size (n : Nat) (v : Byte) : (Image.filled n v).size = n := rfl

@[simp] theorem Image.ofBytes_size (l : List Byte) : (Image.ofBytes l).size = l.length := rfl

theorem Image.write_wf {m : Image} (h : m.wf = true) (i : Nat) (v : Byte) : (m.write i v).wf = true := by
  rw [Image.wf_iff] at h ⊢
  unfold Image.write
  split
  · rename_i hi
    split
    · exact ⟨pairwise_eraseCell h.1 i, fun c hc => h.2 c (mem_eraseCell hc)⟩
    · rename_i hf
      refine ⟨pairwise_insertCell h.1 i v, fun c hc => ?_⟩
      rcases mem_insertCell hc with rfl | hc
      · exact ⟨hi, by simpa using hf⟩
      · exact h.2 c hc
  · exact h

theorem Image.filled_wf (n : Nat) (v : Byte) : (Image.filled n v).wf = true := by
  simp [Image.wf_iff, Image.filled]

theorem Image.ofBytes_wf (l : List Byte) : (Image.ofBytes l).wf = true := by
  rw [Image.wf_iff]
  exact ⟨pairwise_cellsFrom _ _ _, fun c hc =>
    ⟨by have := cellsFrom_range hc; simp only [Image.ofBytes]; omega, (cellsFrom_range hc).2.2⟩⟩

theorem Image.cut_wf {m : Image} (h : m.wf = true) (n : Nat) : (m.cut n).wf = true := by
  rw [Image.wf_iff] at h ⊢
  refine ⟨h.1.filter _, fun c hc => ?_⟩
  have := List.mem_filter.1 hc
  have h2 := h.2 c this.1
  refine ⟨?_, h2.2⟩
  simp only [Image.cut]
  have := this.2
  simp only [decide_eq_true_eq] at this
  omega

theorem Image.setRange_wf {m : Image} (h : m.wf = true) (i n : Nat) (v : Byte) :
    (m.setRange i n v).wf = true := by
  rw [Image.wf_iff] at h ⊢
  have key : ∀ c ∈ rangeCells m i n v,
      i ≤ c.1 ∧ c.1 < i + n ∧ c.1 < m.size ∧ Fill.holds m.fill c.2 = false := by
    intro c hc
    unfold rangeCells at hc
    split at hc
    · cases hc
    · have := cellsFrom_range hc
      simp only [List.length_replicate] at this
      exact ⟨this.1, by omega, by omega, this.2.2⟩
  have hr : (rangeCells m i n v).Pairwise fun c d => c.1 < d.1 := by
    unfold rangeCells
    split
    · exact List.Pairwise.nil
    · exact pairwise_cellsFrom _ _ _
  constructor
  · simp only [Image.setRange]
    rw [List.pairwise_append, List.pairwise_append]
    refine ⟨⟨h.1.filter _, hr, ?_⟩, h.1.filter _, ?_⟩
    · intro c hc d hd
      have := (List.mem_filter.1 hc).2
      simp only [decide_eq_true_eq] at this
      have := key d hd
      omega
    · intro c hc d hd
      have hd' := (List.mem_filter.1 hd).2
      simp only [decide_eq_true_eq] at hd'
      rcases List.mem_append.1 hc with hc | hc
      · have := (List.mem_filter.1 hc).2
        simp only [decide_eq_true_eq] at this
        omega
      · have := key c hc
        omega
  · intro c hc
    simp only [Image.setRange, List.mem_append] at hc
    rcases hc with (hc | hc) | hc
    · exact h.2 c (List.mem_filter.1 hc).1
    · exact (key c hc).2.2
    · exact h.2 c (List.mem_filter.1 hc).1

/-! ### Read after write -/

theorem Image.read_write_same {m : Image} (h : m.wf = true) {i : Nat} (hi : i < m.size) (v : Byte) :
    (m.write i v).read i = v := by
  have hp := ((Image.wf_iff m).1 h).1
  unfold Image.read Image.write
  rw [if_pos hi]
  split
  · rename_i hf
    simp only [lookupCell_erase_same hp]
    have : m.fill.value i = v := by
      revert hf; cases m.fill <;> simp [Fill.holds, Fill.value]
    simpa using this
  · simp only [lookupCell_insert_same]
    rfl

theorem Image.read_write_other {m : Image} (h : m.wf = true) {i j : Nat} (hij : j ≠ i) (v : Byte) :
    (m.write i v).read j = m.read j := by
  have hp := ((Image.wf_iff m).1 h).1
  unfold Image.read Image.write
  split
  · split
    · simp only [lookupCell_erase_other hp i j hij]
    · simp only [lookupCell_insert_other m.cells i j v hij]
  · rfl

/-- A store beyond the array changes nothing. -/
theorem Image.write_beyond {m : Image} {i : Nat} (hi : m.size ≤ i) (v : Byte) : m.write i v = m := by
  unfold Image.write; rw [if_neg (by omega)]

theorem Image.read_beyond {m : Image} {i : Nat} (hi : m.size ≤ i) : m.read i = 0xFF := by
  unfold Image.read; rw [if_neg (by omega)]

@[simp] theorem Image.read_filled {n i : Nat} (hi : i < n) (v : Byte) :
    (Image.filled n v).read i = v := by
  simp [Image.read, Image.filled, hi, lookupCell, Fill.value]

theorem Image.read_ofBytes (l : List Byte) {i : Nat} (hi : i < l.length) :
    (Image.ofBytes l).read i = l[i] := by
  have := lookupCell_cellsFrom (.known 0xFF) l 0 i
  rw [dif_pos ⟨Nat.zero_le _, by omega⟩] at this
  simpa [Image.read, Image.ofBytes, hi] using this

/-- The bytes of the array of a file are the file. -/
theorem Image.toList_ofBytes (l : List Byte) : (Image.ofBytes l).toList = l := by
  apply List.ext_getElem
  · simp [Image.toList]
  · intro i h1 h2
    simp [Image.toList, Image.read_ofBytes l h2]

/-! ### Wider stores -/

namespace Machine

@[simp] theorem storeLE_size (m : Image) (o : Nat) (w : Width) (v : Word) :
    (storeLE m o w v).size = m.size := by cases w <;> simp [storeLE]

theorem storeLE_wf {m : Image} (h : m.wf = true) (o : Nat) (w : Width) (v : Word) :
    (storeLE m o w v).wf = true := by
  cases w <;> simp only [storeLE] <;> repeat' apply Image.write_wf
  all_goals exact h

/-- A store leaves every byte outside it alone. -/
theorem read_storeLE_other {m : Image} (h : m.wf = true) {o j : Nat} (w : Width) (v : Word)
    (hj : j < o ∨ o + w.bytes ≤ j) : (storeLE m o w v).read j = m.read j := by
  cases w <;> simp only [storeLE, Width.bytes] at hj ⊢
  · exact Image.read_write_other h (by omega) _
  · rw [Image.read_write_other (Image.write_wf h _ _) (by omega),
      Image.read_write_other h (by omega)]
  · have h1 := Image.write_wf h o (lane v 0)
    have h2 := Image.write_wf h1 (o + 1) (lane v 1)
    have h3 := Image.write_wf h2 (o + 2) (lane v 2)
    rw [Image.read_write_other h3 (by omega), Image.read_write_other h2 (by omega),
      Image.read_write_other h1 (by omega), Image.read_write_other h (by omega)]

/-- The word store of the EEPROM keeps the size and the form. -/
@[simp] theorem storeEepromWord_size (m : Image) (w : Nat) (d : BitVec 64) :
    (storeEepromWord m w d).size = m.size := by
  simp [storeEepromWord, List.range, List.range.loop]

theorem storeEepromWord_wf {m : Image} (h : m.wf = true) (w : Nat) (d : BitVec 64) :
    (storeEepromWord m w d).wf = true := by
  simp only [storeEepromWord, List.range, List.range.loop, List.foldl_cons, List.foldl_nil]
  repeat' apply Image.write_wf
  exact h

end Machine

end Sys2Proof
end

