-- ==== Sys2Proof/Laws/PerInstr.lean ====
section
/-! SUPPORT. The statement family `RoundTrip`, one lemma for each constructor of `Instr`: the decoder
gives back a well-formed operation from its encoding, every operand at every value. -/
namespace Sys2Proof.Laws.RoundTrip

-- The lemmas below wait on one another; one thread at a time keeps the stacks they need few.
set_option Elab.async false

open Sys2Proof

/-- Decoding the encoding of a well-formed operation gives it back (30_encoding.md R170 to R187). -/
def Statement (i : Instr) : Prop := i.wellFormed = true → decode (encode i) = .ok i

/-! ### Words and bytes -/

theorem append_toNat {m n : Nat} (p : BitVec m) (x : BitVec n) :
    (p ++ x).toNat = p.toNat * 2 ^ n + x.toNat := by
  rw [BitVec.toNat_append, ← Nat.shiftLeft_add_eq_or_of_lt x.isLt, Nat.shiftLeft_eq]

@[simp] theorem half_bytes (a : Half) : half (loByte a) (hiByte a) = a := by
  have := a.isLt
  apply BitVec.eq_of_toNat_eq
  simp only [half, loByte, hiByte, append_toNat, BitVec.toNat_setWidth, BitVec.extractLsb'_toNat,
    Nat.shiftRight_eq_div_pow]
  omega

@[simp] theorem word_bytes (a : Word) :
    word (a.setWidth 8) (a.extractLsb' 8 8) (a.extractLsb' 16 8) (a.extractLsb' 24 8) = a := by
  have := a.isLt
  apply BitVec.eq_of_toNat_eq
  simp only [word, half, append_toNat, BitVec.toNat_setWidth, BitVec.extractLsb'_toNat,
    Nat.shiftRight_eq_div_pow]
  omega

@[simp] theorem double_words (x : BitVec 64) : (x.extractLsb' 32 32 ++ x.setWidth 32 : BitVec 64) = x := by
  have := x.isLt
  apply BitVec.eq_of_toNat_eq
  simp only [append_toNat, BitVec.toNat_setWidth, BitVec.extractLsb'_toNat, Nat.shiftRight_eq_div_pow]
  omega

/-- The low part of an appended pair. -/
@[simp] theorem append_low {m n : Nat} (p : BitVec m) (x : BitVec n) : (p ++ x).setWidth n = x := by
  apply BitVec.eq_of_toNat_eq
  rw [BitVec.toNat_setWidth, append_toNat, Nat.mul_add_mod_self_right, Nat.mod_eq_of_lt x.isLt]

/-- A field of the high part of an appended pair. -/
theorem append_high {m n i k : Nat} (p : BitVec m) (x : BitVec n) :
    (p ++ x).extractLsb' (n + i) k = p.extractLsb' i k := by
  apply BitVec.eq_of_toNat_eq
  rw [BitVec.extractLsb'_toNat, BitVec.extractLsb'_toNat, append_toNat, Nat.shiftRight_eq_div_pow,
    Nat.shiftRight_eq_div_pow, Nat.pow_add, ← Nat.div_div_eq_div_mul, Nat.add_comm,
    Nat.add_mul_div_right _ _ (Nat.two_pow_pos n), Nat.div_eq_of_lt x.isLt, Nat.zero_add]

@[simp] theorem master_code (m : Master) : Master.ofCode m.code = some m := by
  cases m with
  | chan k => cases k <;> rfl
  | _ => rfl

@[simp] theorem kind_code (k : AccessKind) : AccessKind.ofCode k.code = some k := by cases k <;> rfl

@[simp] theorem width_code (w : Width) : Width.ofCode w.code = some w := by cases w <;> rfl

@[simp] theorem chan_code (k : Chan) : Chan.ofNat? (BitVec.ofNat 8 k.toNat).toNat = some k := by
  cases k <;> rfl

/-! ### The formats -/

/-- A `gb_write` word of the control addresses. -/
theorem write_control {a : Half} {v sel : Byte} (h : a.extractLsb' 15 1 = 0) :
    decode (gbWriteFrame a v sel) = decodeControl a v sel := by
  have e : (hiByte a).extractLsb' 7 1 = a.extractLsb' 15 1 := by
    apply BitVec.eq_of_toNat_eq
    simp only [hiByte, BitVec.extractLsb'_toNat, Nat.shiftRight_eq_div_pow]
    omega
  simp [decode, gbWriteFrame, decodeGbWrite, e, h]

/-- A `gb_write` word of the RAM window. -/
theorem write_cart (x : BitVec 13) (v sel : Byte) :
    decode (gbWriteFrame (5#3 ++ x) v sel) = decodeCartWrite x v sel := by
  have := x.isLt
  have e : (hiByte (5#3 ++ x)).extractLsb' 7 1 = 1 := by
    apply BitVec.eq_of_toNat_eq
    simp only [hiByte, BitVec.extractLsb'_toNat, Nat.shiftRight_eq_div_pow, append_toNat]
    simp; omega
  have f : (hiByte (5#3 ++ x)).extractLsb' 5 3 = 5 := by
    apply BitVec.eq_of_toNat_eq
    simp only [hiByte, BitVec.extractLsb'_toNat, Nat.shiftRight_eq_div_pow, append_toNat]
    simp; omega
  have g : (5#3 ++ x : Half).setWidth 13 = x := append_low _ _
  simp [decode, gbWriteFrame, decodeGbWrite, e, f, g]

/-- A `gb_read` word of the ROM addresses. -/
theorem read_rom {a : Half} {sel : Byte} (h : a.extractLsb' 15 1 = 0) :
    decode (gbReadFrame a sel) = decodeRomRead a sel := by
  have e : (hiByte a).extractLsb' 7 1 = a.extractLsb' 15 1 := by
    apply BitVec.eq_of_toNat_eq
    simp only [hiByte, BitVec.extractLsb'_toNat, Nat.shiftRight_eq_div_pow]
    omega
  simp [decode, gbReadFrame, decodeGbRead, e, h]

/-- A `gb_read` word of the RAM window. -/
theorem read_cart (x : BitVec 13) (sel : Byte) :
    decode (gbReadFrame (5#3 ++ x) sel) = decodeCartRead x sel := by
  have := x.isLt
  have e : (hiByte (5#3 ++ x)).extractLsb' 7 1 = 1 := by
    apply BitVec.eq_of_toNat_eq
    simp only [hiByte, BitVec.extractLsb'_toNat, Nat.shiftRight_eq_div_pow, append_toNat]
    simp; omega
  have f : (hiByte (5#3 ++ x)).extractLsb' 5 3 = 5 := by
    apply BitVec.eq_of_toNat_eq
    simp only [hiByte, BitVec.extractLsb'_toNat, Nat.shiftRight_eq_div_pow, append_toNat]
    simp; omega
  have g : (5#3 ++ x : Half).setWidth 13 = x := append_low _ _
  simp [decode, gbReadFrame, decodeGbRead, e, f, g]

/-- A `gb_read` word of the I/O addresses. -/
theorem read_io (x : BitVec 7) :
    decode (gbReadFrame (0b111111110#9 ++ x) 0) = .ok (decodeIoRead x) := by
  have := x.isLt
  have e : hiByte (0b111111110#9 ++ x) = 0xFF := by
    apply BitVec.eq_of_toNat_eq
    simp only [hiByte, BitVec.extractLsb'_toNat, Nat.shiftRight_eq_div_pow, append_toNat]
    simp; omega
  have f : (loByte (0b111111110#9 ++ x)).extractLsb' 7 1 = 0 := by
    apply BitVec.eq_of_toNat_eq
    simp only [loByte, BitVec.extractLsb'_toNat, Nat.shiftRight_eq_div_pow, append_toNat,
      BitVec.toNat_setWidth]
    simp; omega
  have g : (loByte (0b111111110#9 ++ x)).setWidth 7 = x := by
    apply BitVec.eq_of_toNat_eq
    simp only [loByte, append_toNat, BitVec.toNat_setWidth]
    omega
  simp [decode, gbReadFrame, decodeGbRead, e, f, g, onlyRow]

/-- A `gba_io` frame. -/
theorem gba_frame (a : Word) (sel : Byte) (w : Width) (m : Byte) (v : Word) :
    decode (gbaIoFrame a sel w m v)
      = if a.extractLsb' 24 8 = 0x0D then decodeEepromPage (a.setWidth 24) sel w m v
        else if (a.extractLsb' 24 8).extractLsb' 1 7 = 7 then decodeStoragePage (a.setWidth 25) sel w m v
        else decodeDmaPage a sel w m v := by
  simp only [decode, gbaIoFrame, le32, List.cons_append, List.nil_append, decodeGbaIo, width_code,
    word_bytes]

/-- A `gba_io` word of the EEPROM's page. -/
theorem gba_eeprom (a : BitVec 24) (sel m : Byte) (w : Width) (v : Word) :
    decode (gbaIoFrame (0x0D#8 ++ a) sel w m v) = decodeEepromPage a sel w m v := by
  have e : (0x0D#8 ++ a : Word).extractLsb' 24 8 = 0x0D := append_high (i := 0) _ _
  have g : (0x0D#8 ++ a : Word).setWidth 24 = a := append_low _ _
  rw [gba_frame, if_pos e, g]

/-- A `gba_io` word of the storage window. -/
theorem gba_storage (a : BitVec 25) (sel : Byte) (w : Width) (v : Word) :
    decode (gbaIoFrame (7#7 ++ a) sel w 0 v) = decodeStoragePage a sel w 0 v := by
  have := a.isLt
  have e : (7#7 ++ a : Word).extractLsb' 24 8 ≠ 0x0D := by
    intro h
    have := congrArg BitVec.toNat h
    simp only [BitVec.extractLsb'_toNat, Nat.shiftRight_eq_div_pow, append_toNat] at this
    simp at this; omega
  have f : ((7#7 ++ a : Word).extractLsb' 24 8).extractLsb' 1 7 = 7 := by
    apply BitVec.eq_of_toNat_eq
    simp only [BitVec.extractLsb'_toNat, Nat.shiftRight_eq_div_pow, append_toNat]
    simp; omega
  have g : (7#7 ++ a : Word).setWidth 25 = a := append_low _ _
  rw [gba_frame, if_neg e, if_pos f, g]

/-- A `gba_io` word of the DMA registers. -/
theorem gba_dma (k : Chan) (off : Fin 12) (sel : Byte) (w : Width) (v : Word) :
    decode (gbaIoFrame (dmaBase k + BitVec.ofNat 32 off.val) sel w 0 v)
      = decodeDmaReg k off sel w v
          (plainFrame 0 w v (dmaBase k + BitVec.ofNat 32 off.val) sel) := by
  have key : ∀ (k : Chan) (off : Fin 12), (dmaBase k + BitVec.ofNat 32 off.val).extractLsb' 24 8 = 0x04
      ∧ (dmaBase k + BitVec.ofNat 32 off.val).extractLsb' 8 24 = 0x040000#24
      ∧ 0xB0#8 ≤ (dmaBase k + BitVec.ofNat 32 off.val).setWidth 8
      ∧ dmaRegOf ((dmaBase k + BitVec.ofNat 32 off.val).setWidth 8) = some (k, off) := by
    intro k; cases k <;> decide
  obtain ⟨h1, h2, h3, h4⟩ := key k off
  rw [gba_frame, h1, if_neg (by decide), if_neg (by decide), decodeDmaPage, if_pos ⟨h2, h3⟩, h4]

/-! ### Streams -/

theorem bits_snoc (l : List Bool) (b : Bool) : bitsToNat (l ++ [b]) = 2 * bitsToNat l + b.toNat := by
  simp [bitsToNat]

theorem bits_msb : ∀ {w : Nat} (x : BitVec w), bitsToNat (msbBits x) = x.toNat
  | 0, x => by simp [msbBits, bitsToNat, BitVec.of_length_zero]
  | w + 1, x => by
    have h : msbBits x = msbBits (x.extractLsb' 1 w) ++ [x.getLsbD 0] := by
      simp only [msbBits, List.range_succ, List.map_append, List.map_cons, List.map_nil]
      congr 1
      · apply List.map_congr_left
        intro i hi
        have := List.mem_range.1 hi
        simp only [BitVec.getMsbD, BitVec.getLsbD_extractLsb']
        have h1 : i < w + 1 := by omega
        have h2 : w - 1 - i < w := by omega
        have h3 : 1 + (w - 1 - i) = w + 1 - 1 - i := by omega
        simp [this, h1, h2, h3]
      · simp [BitVec.getMsbD]
    have hx := x.isLt
    rw [h, bits_snoc, bits_msb, BitVec.extractLsb'_toNat, Nat.shiftRight_eq_div_pow]
    have : (x.getLsbD 0).toNat = x.toNat % 2 := by
      simp only [BitVec.getLsbD, Nat.testBit_zero]
      rcases Nat.mod_two_eq_zero_or_one x.toNat with h | h <;> simp [h]
    rw [this, Nat.mod_eq_of_lt (by rw [Nat.pow_one]; rw [Nat.pow_succ] at hx; omega)]
    omega

@[simp] theorem msb_length {w : Nat} (x : BitVec w) : (msbBits x).length = w := by simp [msbBits]

@[simp] theorem bits_of_frame (l : List Bool) : (l.map boolCode).map bitOf = l := by
  rw [List.map_map]
  exact (List.map_congr_left (g := id) fun b _ => by cases b <;> rfl).trans (List.map_id l)

/-- The frame of a stream whose length without the stop bit is that of a command. -/
theorem decode_stream {l : List Bool} (stop : Option Bool)
    (h : l.length = 8 ∨ l.length = 16 ∨ l.length = 72 ∨ l.length = 80) :
    decode (streamFrame (l ++ stop.toList)) = streamRow (l ++ stop.toList) l stop := by
  have e : ∀ m : List Bool, List.map bitOf (List.map boolCode m) = m := bits_of_frame
  cases stop with
  | none =>
    have : ¬ (l.length = 9 ∨ l.length = 17 ∨ l.length = 73 ∨ l.length = 81) := by omega
    simp only [decode, streamFrame, decodeStream, List.length_map, Option.toList_none,
      List.append_nil, if_neg this, e]
  | some b =>
    have : l.length + 1 = 9 ∨ l.length + 1 = 17 ∨ l.length + 1 = 73 ∨ l.length + 1 = 81 := by omega
    simp only [decode, streamFrame, decodeStream, List.length_map, List.length_append,
      Option.toList_some, List.length_singleton, if_pos this, e, List.dropLast_concat,
      List.getLast?_concat]

theorem ofNat_msb {w : Nat} (x : BitVec w) : BitVec.ofNat w (bitsToNat (msbBits x)) = x := by
  rw [bits_msb, BitVec.ofNat_toNat, BitVec.setWidth_eq]

/-! ### Fields of the addresses -/

/-- The bits a[15] and a[14:13] of a control address, and what is below them. -/
theorem fields3 (p : BitVec 3) (a : BitVec 13) :
    (p ++ a : Half).extractLsb' 15 1 = p.extractLsb' 2 1
      ∧ (p ++ a : Half).extractLsb' 13 2 = p.extractLsb' 0 2 ∧ (p ++ a : Half).setWidth 13 = a :=
  ⟨append_high (i := 2) _ _, append_high (i := 0) _ _, append_low _ _⟩

/-- A control address from 0x4000 up is in neither ROM-bank register of Family D. -/
theorem not_rombank (p : BitVec 3) (a : BitVec 13) (h : 2 ≤ p) (h3 : p ≤ 3) :
    (p ++ a : Half).extractLsb' 12 3 ≠ 2 ∧ (p ++ a : Half).extractLsb' 12 3 ≠ 3 := by
  have := a.isLt
  have := p.isLt
  have h' : 2 ≤ p.toNat := h
  have h3' : p.toNat ≤ 3 := h3
  constructor <;> intro e <;> have e := congrArg BitVec.toNat e <;>
    simp only [BitVec.extractLsb'_toNat, Nat.shiftRight_eq_div_pow, append_toNat] at e <;>
    simp at e <;> omega

/-- The bits a[15], a[14:13] and a[14:12] of a control address, and what is below them. -/
theorem fields4 (p : BitVec 4) (a : BitVec 12) :
    (p ++ a : Half).extractLsb' 15 1 = p.extractLsb' 3 1
      ∧ (p ++ a : Half).extractLsb' 13 2 = p.extractLsb' 1 2
      ∧ (p ++ a : Half).extractLsb' 12 3 = p.extractLsb' 0 3 ∧ (p ++ a : Half).setWidth 12 = a :=
  ⟨append_high (i := 3) _ _, append_high (i := 1) _ _, append_high (i := 0) _ _, append_low _ _⟩

/-- The fields of a Family B address below 0x4000. -/
theorem fieldsB (hi : BitVec 5) (b : BitVec 1) (lo : Byte) :
    (0#2 ++ hi ++ b ++ lo : Half).extractLsb' 15 1 = 0
      ∧ (0#2 ++ hi ++ b ++ lo : Half).extractLsb' 14 1 = 0
      ∧ (0#2 ++ hi ++ b ++ lo : Half).extractLsb' 8 1 = b
      ∧ (0#2 ++ hi ++ b ++ lo : Half).extractLsb' 9 5 = hi
      ∧ loByte (0#2 ++ hi ++ b ++ lo : Half) = lo := by
  have := hi.isLt
  have := b.isLt
  have := lo.isLt
  refine ⟨?_, ?_, ?_, ?_, append_low _ _⟩ <;> apply BitVec.eq_of_toNat_eq <;>
    simp only [BitVec.extractLsb'_toNat, Nat.shiftRight_eq_div_pow, append_toNat] <;> simp <;> omega

/-- The bits a[15] and a[14] of an address, and what is below them. -/
theorem fields2 (p : BitVec 2) (a : BitVec 14) :
    (p ++ a : Half).extractLsb' 15 1 = p.extractLsb' 1 1
      ∧ (p ++ a : Half).extractLsb' 14 1 = p.extractLsb' 0 1 ∧ (p ++ a : Half).setWidth 14 = a :=
  ⟨append_high (i := 1) _ _, append_high (i := 0) _ _, append_low _ _⟩

/-- The bit a[15] of an address, and what is below it. -/
theorem fields1 (a : BitVec 15) :
    (0#1 ++ a : Half).extractLsb' 15 1 = 0 ∧ (0#1 ++ a : Half).setWidth 15 = a :=
  ⟨append_high (i := 0) _ _, append_low _ _⟩

/-- The word of a chip-identifier read. -/
theorem flash_word (hi : BitVec 9) (o : Half) :
    ((hi ++ o : BitVec 25).setWidth 16 = o) ∧ (hi ++ o : BitVec 25).extractLsb' 16 9 = hi :=
  ⟨append_low _ _, by
    rw [show (hi ++ o : BitVec 25).extractLsb' 16 9 = hi.extractLsb' 0 9 from append_high (i := 0) _ _]
    exact BitVec.extractLsb'_eq_self⟩

theorem id_word (hi : BitVec 9) (o : Half) : (7#7 ++ hi ++ o : Word) = 7#7 ++ (hi ++ o : BitVec 25) := by
  apply BitVec.eq_of_toNat_eq
  simp only [append_toNat]
  omega

theorem enable_value (c : BitVec 1) (ctl : BitVec 15) : ((c ++ ctl).setWidth 32 : Word).setWidth 15 = ctl := by
  have := ctl.isLt
  apply BitVec.eq_of_toNat_eq
  simp only [BitVec.toNat_setWidth, append_toNat]
  omega

theorem hdma5_bits (b : BitVec 1) (len : BitVec 7) :
    (b ++ len : Byte).extractLsb' 7 1 = b ∧ (b ++ len : Byte).setWidth 7 = len :=
  ⟨(append_high (i := 0) _ _).trans BitVec.extractLsb'_eq_self, append_low _ _⟩

/-- The frame of a write of 0xFF55. -/
theorem write_hdma5 (v sel : Byte) : decode (gbWriteFrame 0xFF55 v sel) = decodeHdma5 v sel := rfl

/-! ### One lemma for each constructor -/

theorem busRead8 (m : Master) (k : AccessKind) (a : Word) :
    Statement (.busRead8 m k a) := by
  intro _
  simp [encode, callFrame, decode, decodeCall, decodeReadCall, le32]

theorem busRead16 (m : Master) (k : AccessKind) (a : Word) :
    Statement (.busRead16 m k a) := by
  intro _
  simp [encode, callFrame, decode, decodeCall, decodeReadCall, le32]

theorem busRead32 (m : Master) (k : AccessKind) (a : Word) :
    Statement (.busRead32 m k a) := by
  intro _
  simp [encode, callFrame, decode, decodeCall, decodeReadCall, le32]

theorem busWrite8 (m : Master) (a : Word) (v : Byte) :
    Statement (.busWrite8 m a v) := by
  intro _
  simp [encode, callFrame, decode, decodeCall, decodeWriteCall, le32]

theorem busWrite16 (m : Master) (a : Word) (v : Half) :
    Statement (.busWrite16 m a v) := by
  intro _
  simp [encode, callFrame, decode, decodeCall, decodeWriteCall, le32, le16]

theorem busWrite32 (m : Master) (a : Word) (v : Word) :
    Statement (.busWrite32 m a v) := by
  intro _
  simp [encode, callFrame, decode, decodeCall, decodeWriteCall, le32]

theorem tick (c : Int) :
    Statement (.tick c) := by
  intro h
  simp only [Instr.wellFormed, tickFits, Bool.and_eq_true, decide_eq_true_eq] at h
  have e : (BitVec.ofInt 64 c).toInt = c := by
    rw [BitVec.toInt_ofInt]
    exact Int.bmod_eq_of_le (by omega) (by omega)
  simp only [encode, callFrame, decode, decodeCall, decodeTickCall, le64, le32, List.cons_append,
    List.nil_append, word_bytes, double_words, e]
  rfl

theorem triggerVblank : Statement (.triggerVblank) := fun _ => rfl

theorem triggerHblank : Statement (.triggerHblank) := fun _ => rfl

theorem triggerFifoa : Statement (.triggerFifoa) := fun _ => rfl

theorem triggerFifob : Statement (.triggerFifob) := fun _ => rfl

theorem loadGen1 (f : SaveFile) :
    Statement (.loadGen1 f) := by
  intro _
  cases f <;> simp [encode, callFrame, decode, decodeCall, decodeLoadCall, saveFileBytes, loadRow]

theorem serializeGen1 (writable : Bool) :
    Statement (.serializeGen1 writable) := fun _ => by cases writable <;> rfl

theorem loadGen2 (f : SaveFile) :
    Statement (.loadGen2 f) := by
  intro _
  cases f <;> simp [encode, callFrame, decode, decodeCall, decodeLoadCall, saveFileBytes, loadRow]

theorem serializeGen2 (writable : Bool) :
    Statement (.serializeGen2 writable) := fun _ => by cases writable <;> rfl

theorem gbDmaWrite (v : Byte) :
    Statement (.gbDmaWrite v) := fun _ => rfl

theorem gbVbkWrite (v : Byte) :
    Statement (.gbVbkWrite v) := fun _ => rfl

theorem gbBootWrite (v : Byte) :
    Statement (.gbBootWrite v) := fun _ => rfl

theorem gbHdma1 (v : Byte) :
    Statement (.gbHdma1 v) := fun _ => rfl

theorem gbHdma2 (v : Byte) :
    Statement (.gbHdma2 v) := fun _ => rfl

theorem gbHdma3 (v : Byte) :
    Statement (.gbHdma3 v) := fun _ => rfl

theorem gbHdma4 (v : Byte) :
    Statement (.gbHdma4 v) := fun _ => rfl

theorem gbHdma5Gdma (len : BitVec 7) :
    Statement (.gbHdma5Gdma len) := by
  intro _
  obtain ⟨h1, h2⟩ := hdma5_bits 0#1 len
  rw [encode, write_hdma5]
  simp [decodeHdma5, h1, h2]

theorem gbHdma5Hdma (len : BitVec 7) :
    Statement (.gbHdma5Hdma len) := by
  intro _
  obtain ⟨h1, h2⟩ := hdma5_bits 1#1 len
  rw [encode, write_hdma5]
  simp [decodeHdma5, h1, h2]

theorem gbHdma5Cancel (len : BitVec 7) :
    Statement (.gbHdma5Cancel len) := by
  intro _
  obtain ⟨h1, h2⟩ := hdma5_bits 0#1 len
  rw [encode, write_hdma5]
  simp [decodeHdma5, h1, h2]

theorem gbHdma5Restart (len : BitVec 7) :
    Statement (.gbHdma5Restart len) := by
  intro _
  obtain ⟨h1, h2⟩ := hdma5_bits 1#1 len
  rw [encode, write_hdma5]
  simp [decodeHdma5, h1, h2]

theorem gbSvbkWrite (v : Byte) :
    Statement (.gbSvbkWrite v) := fun _ => rfl

theorem gbDmaRead : Statement (.gbDmaRead) := fun _ => rfl

theorem gbVbkRead : Statement (.gbVbkRead) := fun _ => rfl

theorem gbBootRead : Statement (.gbBootRead) := fun _ => rfl

theorem gbHdma1Read : Statement (.gbHdma1Read) := fun _ => rfl

theorem gbHdma2Read : Statement (.gbHdma2Read) := fun _ => rfl

theorem gbHdma3Read : Statement (.gbHdma3Read) := fun _ => rfl

theorem gbHdma4Read : Statement (.gbHdma4Read) := fun _ => rfl

theorem gbHdma5Read : Statement (.gbHdma5Read) := fun _ => rfl

theorem gbSvbkRead : Statement (.gbSvbkRead) := fun _ => rfl

theorem gbIoForwardRead (a : BitVec 7) :
    Statement (.gbIoForwardRead a) := by
  intro h
  rw [encode, read_io, decodeIoRead]
  simp only [Instr.wellFormed, forwardable, ownedIo, List.contains_cons, List.contains_nil,
    Bool.not_eq_true', Bool.or_eq_false_iff, beq_eq_false_iff_ne, ne_eq, and_true] at h
  simp only [h, if_false]

theorem aRamg (a : BitVec 13) (v : Byte) :
    Statement (.aRamg a v) := by
  intro _
  obtain ⟨h1, h2, h3⟩ := fields3 0#3 a
  rw [encode, write_control (h1.trans rfl)]
  simp [decodeControl, controlA, h2, h3]

theorem aRomb0 (a : BitVec 13) (v : Byte) :
    Statement (.aRomb0 a v) := by
  intro _
  obtain ⟨h1, h2, h3⟩ := fields3 1#3 a
  rw [encode, write_control (h1.trans rfl)]
  simp [decodeControl, controlA, h2, h3]

theorem aRamb (a : BitVec 13) (v : Byte) :
    Statement (.aRamb a v) := by
  intro _
  obtain ⟨h1, h2, h3⟩ := fields3 2#3 a
  rw [encode, write_control (h1.trans rfl)]
  simp [decodeControl, controlA, h2, h3]

theorem aMode (a : BitVec 13) (v : Byte) :
    Statement (.aMode a v) := by
  intro _
  obtain ⟨h1, h2, h3⟩ := fields3 3#3 a
  rw [encode, write_control (h1.trans rfl)]
  simp [decodeControl, controlA, h2, h3]

theorem bRamg (hi : BitVec 5) (lo : Byte) (v : Byte) :
    Statement (.bRamg hi lo v) := by
  intro _
  obtain ⟨h1, h2, h3, h4, h5⟩ := fieldsB hi 0#1 lo
  rw [encode, write_control h1]
  simp [decodeControl, controlB, h2, h3, h4, h5]

theorem bRomb (hi : BitVec 5) (lo : Byte) (v : Byte) :
    Statement (.bRomb hi lo v) := by
  intro _
  obtain ⟨h1, h2, h3, h4, h5⟩ := fieldsB hi 1#1 lo
  rw [encode, write_control h1]
  simp [decodeControl, controlB, h2, h3, h4, h5]

theorem bIgnored (a : BitVec 14) (v : Byte) :
    Statement (.bIgnored a v) := by
  intro _
  obtain ⟨h1, h2, h3⟩ := fields2 1#2 a
  rw [encode, write_control (h1.trans rfl)]
  simp [decodeControl, controlB, h2, h3]

theorem cRamg (a : BitVec 13) (v : Byte) :
    Statement (.cRamg a v) := by
  intro _
  obtain ⟨h1, h2, h3⟩ := fields3 0#3 a
  rw [encode, write_control (h1.trans rfl)]
  simp [decodeControl, controlC, h2, h3]

theorem cRomb (a : BitVec 13) (v : Byte) :
    Statement (.cRomb a v) := by
  intro _
  obtain ⟨h1, h2, h3⟩ := fields3 1#3 a
  rw [encode, write_control (h1.trans rfl)]
  simp [decodeControl, controlC, h2, h3]

theorem cRamb (a : BitVec 13) (v : Byte) :
    Statement (.cRamb a v) := by
  intro _
  obtain ⟨h1, h2, h3⟩ := fields3 2#3 a
  rw [encode, write_control (h1.trans rfl)]
  simp [decodeControl, controlC, h2, h3]

theorem cLatch (a : BitVec 13) (v : Byte) :
    Statement (.cLatch a v) := by
  intro _
  obtain ⟨h1, h2, h3⟩ := fields3 3#3 a
  rw [encode, write_control (h1.trans rfl)]
  simp [decodeControl, controlC, h2, h3]

theorem dRamg (a : BitVec 13) (v : Byte) :
    Statement (.dRamg a v) := by
  intro _
  obtain ⟨h1, h2, h3⟩ := fields3 0#3 a
  rw [encode, write_control (h1.trans rfl)]
  simp [decodeControl, controlD, h2, h3]

theorem dRomb0 (a : BitVec 12) (v : Byte) :
    Statement (.dRomb0 a v) := by
  intro _
  obtain ⟨h1, h2, h3, h4⟩ := fields4 2#4 a
  rw [encode, write_control (h1.trans rfl)]
  simp [decodeControl, controlD, h2, h3, h4]

theorem dRomb1 (a : BitVec 12) (v : Byte) :
    Statement (.dRomb1 a v) := by
  intro _
  obtain ⟨h1, h2, h3, h4⟩ := fields4 3#4 a
  rw [encode, write_control (h1.trans rfl)]
  simp [decodeControl, controlD, h2, h3, h4]

theorem dRamb (a : BitVec 13) (v : Byte) :
    Statement (.dRamb a v) := by
  intro _
  obtain ⟨h1, h2, h3⟩ := fields3 2#3 a
  obtain ⟨h4, h5⟩ := not_rombank 2#3 a (by decide) (by decide)
  rw [encode, write_control (h1.trans rfl)]
  simp only [decodeControl, controlD, h2, h3, if_neg h4, if_neg h5]
  rfl

theorem dIgnored (a : BitVec 13) (v : Byte) :
    Statement (.dIgnored a v) := by
  intro _
  obtain ⟨h1, h2, h3⟩ := fields3 3#3 a
  obtain ⟨h4, h5⟩ := not_rombank 3#3 a (by decide) (by decide)
  rw [encode, write_control (h1.trans rfl)]
  simp only [decodeControl, controlD, h2, h3, if_neg h4, if_neg h5]
  rfl

theorem noneIgnored (a : BitVec 15) (v : Byte) :
    Statement (.noneIgnored a v) := by
  intro _
  obtain ⟨h1, h2⟩ := fields1 a
  rw [encode, write_control h1]
  simp [decodeControl, h2]

theorem cartRamWrite (a : BitVec 13) (v : Byte) :
    Statement (.cartRamWrite a v) := fun _ => (write_cart a v _).trans rfl

theorem rtcWriteS (a : BitVec 13) (v : Byte) :
    Statement (.rtcWriteS a v) := fun _ => (write_cart a v _).trans rfl

theorem rtcWriteM (a : BitVec 13) (v : Byte) :
    Statement (.rtcWriteM a v) := fun _ => (write_cart a v _).trans rfl

theorem rtcWriteH (a : BitVec 13) (v : Byte) :
    Statement (.rtcWriteH a v) := fun _ => (write_cart a v _).trans rfl

theorem rtcWriteDl (a : BitVec 13) (v : Byte) :
    Statement (.rtcWriteDl a v) := fun _ => (write_cart a v _).trans rfl

theorem rtcWriteDh (a : BitVec 13) (v : Byte) :
    Statement (.rtcWriteDh a v) := fun _ => (write_cart a v _).trans rfl

theorem romReadLow (a : BitVec 14) :
    Statement (.romReadLow a) := by
  intro _
  obtain ⟨h1, h2, h3⟩ := fields2 0#2 a
  rw [encode, read_rom (h1.trans rfl)]
  simp [decodeRomRead, h2, h3]

theorem romReadHigh (a : BitVec 14) :
    Statement (.romReadHigh a) := by
  intro _
  obtain ⟨h1, h2, h3⟩ := fields2 1#2 a
  rw [encode, read_rom (h1.trans rfl)]
  simp [decodeRomRead, h2, h3]

theorem aRomMap (a : BitVec 15) :
    Statement (.aRomMap a) := by
  intro _
  obtain ⟨h1, h2⟩ := fields1 a
  rw [encode, read_rom h1]
  simp [decodeRomRead, h2]

theorem bRomMap (a : BitVec 15) :
    Statement (.bRomMap a) := by
  intro _
  obtain ⟨h1, h2⟩ := fields1 a
  rw [encode, read_rom h1]
  simp [decodeRomRead, h2]

theorem cRomMap (a : BitVec 15) :
    Statement (.cRomMap a) := by
  intro _
  obtain ⟨h1, h2⟩ := fields1 a
  rw [encode, read_rom h1]
  simp [decodeRomRead, h2]

theorem dRomMap (a : BitVec 15) :
    Statement (.dRomMap a) := by
  intro _
  obtain ⟨h1, h2⟩ := fields1 a
  rw [encode, read_rom h1]
  simp [decodeRomRead, h2]

theorem cartRamRead (a : BitVec 13) :
    Statement (.cartRamRead a) := fun _ => (read_cart a _).trans rfl

theorem aRamMap (a : BitVec 13) :
    Statement (.aRamMap a) := fun _ => (read_cart a _).trans rfl

theorem bRamMap (a : BitVec 13) :
    Statement (.bRamMap a) := fun _ => (read_cart a _).trans rfl

theorem cRamMap (a : BitVec 13) :
    Statement (.cRamMap a) := fun _ => (read_cart a _).trans rfl

theorem rtcRead (a : BitVec 13) :
    Statement (.rtcRead a) := fun _ => (read_cart a _).trans rfl

theorem gbaDma0Sad (w : Width) (v : Word) :
    Statement (.gbaDma0Sad w v) := fun _ => (gba_dma .c0 0 0 w v).trans rfl

theorem gbaDma0Dad (w : Width) (v : Word) :
    Statement (.gbaDma0Dad w v) := fun _ => (gba_dma .c0 4 0 w v).trans rfl

theorem gbaDma0CntL (w : Width) (v : Word) :
    Statement (.gbaDma0CntL w v) := fun _ => (gba_dma .c0 8 0 w v).trans rfl

theorem gbaDma0CntH (w : Width) (v : Word) :
    Statement (.gbaDma0CntH w v) := fun _ => (gba_dma .c0 10 0 w v).trans rfl

theorem gbaDma0Enable (ctl : BitVec 15) :
    Statement (.gbaDma0Enable ctl) := by
  intro _
  refine (gba_dma .c0 10 2 .b2 _).trans ?_
  rw [decodeDmaReg, if_neg (by decide), if_neg (by decide), if_pos (by decide), enable_value]
  rfl

theorem gbaDma0Disable (ctl : BitVec 15) :
    Statement (.gbaDma0Disable ctl) := by
  intro _
  refine (gba_dma .c0 10 3 .b2 _).trans ?_
  simp [decodeDmaReg, disableRow]

theorem gbaDma0Read (off : Fin 12) (w : Width) :
    Statement (.gbaDma0Read off w) := fun _ => (gba_dma .c0 off 1 w 0).trans rfl

theorem gbaDma1Sad (w : Width) (v : Word) :
    Statement (.gbaDma1Sad w v) := fun _ => (gba_dma .c1 0 0 w v).trans rfl

theorem gbaDma1Dad (w : Width) (v : Word) :
    Statement (.gbaDma1Dad w v) := fun _ => (gba_dma .c1 4 0 w v).trans rfl

theorem gbaDma1CntL (w : Width) (v : Word) :
    Statement (.gbaDma1CntL w v) := fun _ => (gba_dma .c1 8 0 w v).trans rfl

theorem gbaDma1CntH (w : Width) (v : Word) :
    Statement (.gbaDma1CntH w v) := fun _ => (gba_dma .c1 10 0 w v).trans rfl

theorem gbaDma1Enable (ctl : BitVec 15) :
    Statement (.gbaDma1Enable ctl) := by
  intro _
  refine (gba_dma .c1 10 2 .b2 _).trans ?_
  rw [decodeDmaReg, if_neg (by decide), if_neg (by decide), if_pos (by decide), enable_value]
  rfl

theorem gbaDma1Disable (ctl : BitVec 15) :
    Statement (.gbaDma1Disable ctl) := by
  intro _
  refine (gba_dma .c1 10 3 .b2 _).trans ?_
  simp [decodeDmaReg, disableRow]

theorem gbaDma1Read (off : Fin 12) (w : Width) :
    Statement (.gbaDma1Read off w) := fun _ => (gba_dma .c1 off 1 w 0).trans rfl

theorem gbaDma2Sad (w : Width) (v : Word) :
    Statement (.gbaDma2Sad w v) := fun _ => (gba_dma .c2 0 0 w v).trans rfl

theorem gbaDma2Dad (w : Width) (v : Word) :
    Statement (.gbaDma2Dad w v) := fun _ => (gba_dma .c2 4 0 w v).trans rfl

theorem gbaDma2CntL (w : Width) (v : Word) :
    Statement (.gbaDma2CntL w v) := fun _ => (gba_dma .c2 8 0 w v).trans rfl

theorem gbaDma2CntH (w : Width) (v : Word) :
    Statement (.gbaDma2CntH w v) := fun _ => (gba_dma .c2 10 0 w v).trans rfl

theorem gbaDma2Enable (ctl : BitVec 15) :
    Statement (.gbaDma2Enable ctl) := by
  intro _
  refine (gba_dma .c2 10 2 .b2 _).trans ?_
  rw [decodeDmaReg, if_neg (by decide), if_neg (by decide), if_pos (by decide), enable_value]
  rfl

theorem gbaDma2Disable (ctl : BitVec 15) :
    Statement (.gbaDma2Disable ctl) := by
  intro _
  refine (gba_dma .c2 10 3 .b2 _).trans ?_
  simp [decodeDmaReg, disableRow]

theorem gbaDma2Read (off : Fin 12) (w : Width) :
    Statement (.gbaDma2Read off w) := fun _ => (gba_dma .c2 off 1 w 0).trans rfl

theorem gbaDma3Sad (w : Width) (v : Word) :
    Statement (.gbaDma3Sad w v) := fun _ => (gba_dma .c3 0 0 w v).trans rfl

theorem gbaDma3Dad (w : Width) (v : Word) :
    Statement (.gbaDma3Dad w v) := fun _ => (gba_dma .c3 4 0 w v).trans rfl

theorem gbaDma3CntL (w : Width) (v : Word) :
    Statement (.gbaDma3CntL w v) := fun _ => (gba_dma .c3 8 0 w v).trans rfl

theorem gbaDma3CntH (w : Width) (v : Word) :
    Statement (.gbaDma3CntH w v) := fun _ => (gba_dma .c3 10 0 w v).trans rfl

theorem gbaDma3Enable (ctl : BitVec 15) :
    Statement (.gbaDma3Enable ctl) := by
  intro _
  refine (gba_dma .c3 10 2 .b2 _).trans ?_
  rw [decodeDmaReg, if_neg (by decide), if_neg (by decide), if_pos (by decide), enable_value]
  rfl

theorem gbaDma3Disable (ctl : BitVec 15) :
    Statement (.gbaDma3Disable ctl) := by
  intro _
  refine (gba_dma .c3 10 3 .b2 _).trans ?_
  simp [decodeDmaReg, disableRow]

theorem gbaDma3Read (off : Fin 12) (w : Width) :
    Statement (.gbaDma3Read off w) := fun _ => (gba_dma .c3 off 1 w 0).trans rfl

theorem batteryRamRead (a : BitVec 25) (w : Width) :
    Statement (.batteryRamRead a w) := fun _ => (gba_storage a _ w 0).trans rfl

theorem batteryRamWrite (a : BitVec 25) (w : Width) (v : Word) :
    Statement (.batteryRamWrite a w v) := fun _ => (gba_storage a 1 w v).trans rfl

theorem storageSniff (a : BitVec 25) (w : Width) (v : Option Word) :
    Statement (.storageSniff a w v) := by
  intro _
  cases v with
  | none => exact (gba_storage a 2 w 0).trans rfl
  | some v => exact (gba_storage a 3 w v).trans rfl

theorem eepromBitWrite (k : Chan) (a : BitVec 24) (d : Half) :
    Statement (.eepromBitWrite k a d) := by
  intro _
  rw [encode, gba_eeprom, decodeEepromPage, chan_code]
  simp

theorem eepromDrainRead (m : Master) (a : BitVec 24) (w : Width) :
    Statement (.eepromDrainRead m a w) := by
  intro _
  rw [encode, gba_eeprom]
  simp [decodeEepromPage]

theorem eepromCpuWrite (a : BitVec 24) (w : Width) (v : Word) :
    Statement (.eepromCpuWrite a w v) := fun _ => (gba_eeprom a 2 0 w v).trans rfl

theorem eepromSniff (k : Chan) (a : BitVec 24) (d : Half) :
    Statement (.eepromSniff k a d) := by
  intro _
  rw [encode, gba_eeprom, decodeEepromPage, chan_code]
  simp

theorem flashRead (a : BitVec 25) (w : Width) :
    Statement (.flashRead a w) := fun _ => (gba_storage a _ w 0).trans rfl

theorem flashIdManuf (hi : BitVec 9) (w : Width) :
    Statement (.flashIdManuf hi w) := by
  intro _
  obtain ⟨h1, h2⟩ := flash_word hi 0#16
  rw [encode, id_word, gba_storage]
  simp [decodeStoragePage, h1, h2]

theorem flashIdDevice (hi : BitVec 9) (w : Width) :
    Statement (.flashIdDevice hi w) := by
  intro _
  obtain ⟨h1, h2⟩ := flash_word hi 1#16
  rw [encode, id_word, gba_storage]
  simp [decodeStoragePage, h1, h2]

theorem flashUnlock1 : Statement (.flashUnlock1) := fun _ => rfl

theorem flashUnlock2 : Statement (.flashUnlock2) := fun _ => rfl

theorem flashIdEnter : Statement (.flashIdEnter) := fun _ => rfl

theorem flashIdExit : Statement (.flashIdExit) := fun _ => rfl

theorem flashErase : Statement (.flashErase) := fun _ => rfl

theorem flashEraseChip : Statement (.flashEraseChip) := fun _ => rfl

theorem flashEraseSector (o : Half) :
    Statement (.flashEraseSector o) := by
  intro _
  simp [encode, flashFrame, decode, decodeFlash]

theorem flashProgram : Statement (.flashProgram) := fun _ => rfl

theorem flashBank : Statement (.flashBank) := fun _ => rfl

theorem flashProgramData (o : Half) (v : Byte) :
    Statement (.flashProgramData o v) := by
  intro _
  simp [encode, flashFrame, decode, decodeFlash]

theorem flashBankData (v : Byte) :
    Statement (.flashBankData v) := fun _ => rfl

theorem flashUnrecognized (o : Half) (v : Byte) :
    Statement (.flashUnrecognized o v) := by
  intro _
  simp [encode, flashFrame, decode, decodeFlash]

theorem eepromRead6 (x : BitVec 6) (stop : Option Bool) :
    Statement (.eepromRead6 x stop) := by
  intro _
  rw [encode, readBits, decode_stream stop (by simp)]
  simp [streamRow, ofNat_msb]

theorem eepromRead14 (x : BitVec 14) (stop : Option Bool) :
    Statement (.eepromRead14 x stop) := by
  intro _
  rw [encode, readBits, decode_stream stop (by simp)]
  simp [streamRow, ofNat_msb]

theorem eepromWrite6 (x : BitVec 6) (d : BitVec 64) (stop : Option Bool) :
    Statement (.eepromWrite6 x d stop) := by
  intro _
  rw [encode, writeBits, decode_stream stop (by simp)]
  have h : (msbBits x ++ msbBits d).length = 70 := by simp
  have ht : (msbBits x ++ msbBits d).take 6 = msbBits x := List.take_left' (msb_length x)
  have hd : (msbBits x ++ msbBits d).drop 6 = msbBits d := List.drop_left' (msb_length x)
  simp only [List.cons_append, List.nil_append, streamRow, h, ht, hd, ofNat_msb, if_true]

theorem eepromWrite14 (x : BitVec 14) (d : BitVec 64) (stop : Option Bool) :
    Statement (.eepromWrite14 x d stop) := by
  intro _
  rw [encode, writeBits, decode_stream stop (by simp)]
  have h : (msbBits x ++ msbBits d).length = 78 := by simp
  have ht : (msbBits x ++ msbBits d).take 14 = msbBits x := List.take_left' (msb_length x)
  have hd : (msbBits x ++ msbBits d).drop 14 = msbBits d := List.drop_left' (msb_length x)
  simp only [List.cons_append, List.nil_append, streamRow, h, ht, hd, ofNat_msb, if_true]
  rfl

end Sys2Proof.Laws.RoundTrip
end

