-- ==== Sys2Proof/Tests/Slice0.lean ====
section
/-! SUPPORT. The model's own tests: the well-formedness smoke, the decoding of words written out from the
spec's encodings, small steps with the results that spec/95_test_vectors.md and the rules give, and for
every statement a state and operands that meet its hypotheses. -/
namespace Sys2Proof.Tests

-- One thread at a time keeps the stacks the tests need few.
set_option Elab.async false

open Sys2Proof Sys2Proof.Machine Sys2Proof.Safety Sys2Proof.Claims

/-! ### Small states -/

/-- A field of the state a part of a call ends in. -/
def after {α : Type} (o : Res State) (f : State → α) : Option α :=
  match o with
  | .next t => some (f t)
  | .fault _ => none
  | .refused _ => none

/-- The refusal a call ends in. -/
def refusal (o : Res State) : Option Refusal :=
  match o with
  | .next _ => none
  | .fault _ => none
  | .refused r => some r

/-- The fault a call ends in. -/
def faultOf (o : Res State) : Option Fault :=
  match o with
  | .next _ => none
  | .fault f => some f
  | .refused _ => none

/-- Whether a call ends in a next state. -/
def goesOn (o : Res State) : Bool :=
  match o with
  | .next _ => true
  | .fault _ => false
  | .refused _ => false

/-- A cartridge with a battery. -/
def cartOf (f : Family) (banks ram : Nat) (rtc rumble : Bool) : Cart :=
  { family := f, romBankCount := banks, ramSize := ram, hasBattery := true, hasRtc := rtc,
    hasRumble := rumble, otherDevice := false }

/-- A ROM in which byte 0 of each of the banks 1, 2, 3, 5, 0x20, 0x21 and 0x105 is the bank's number. -/
def bankRom (banks : Nat) : Image :=
  { size := banks * 0x4000, fill := .known 0,
    cells := [(0x4000, 1), (0x8000, 2), (0xC000, 3), (0x14000, 5), (0x80000, 0x20), (0x84000, 0x21),
              (0x414000, 0x05)] }

/-- Generation-1 parameters. -/
def cfg1 (c : Cart) (cgb : Bool) : Config :=
  { Config.standard with cart := c, cgb := cgb, rom := bankRom c.romBankCount }

/-- A generation-1 block, its work RAM holding 0, 1, ... from index 0. -/
def gen1 (c : Cart) (cgb : Bool) : State :=
  { State.ofConfig (cfg1 c cgb) State.reset.host with
    g1 := { gen1Of (cfg1 c cgb) 0 with
      wram := { drawn (if cgb then 0x8000 else 0x2000) 2 with cells := [(0, 0x11), (1, 0x22), (159, 0x9F)] } } }

/-- Family A, 64 banks, 32 KiB, on a machine that is not a colour one. -/
def sA : State := gen1 (cartOf .a 64 0x8000 false false) false

/-- The same on a colour machine. -/
def sColour : State := gen1 (cartOf .a 64 0x8000 false false) true

def sB : State := gen1 (cartOf .b 16 0 false false) false

def sC : State := gen1 (cartOf .c 128 0x2000 true false) false

def sD : State := gen1 (cartOf .d 512 0x8000 false true) false

def sNone : State := gen1 (cartOf .romOnly 2 0x2000 false false) false

/-- A state with its RAM window open at a select. -/
def ramOpen (s : State) (sel : Byte) : State :=
  { s with g1.bank.ramEnabled := true, g1.bank.ramBank := sel }

/-- Family C with an elapsed time of `e` seconds and the clock register `sel` selected. -/
def sClock (e : Nat) (sel : Byte) : State :=
  { ramOpen sC sel with host.now := e, g1.rtc := { Rtc.fresh 0 with carry := false } }

/-- A generation-2 block. -/
def sG2 : State :=
  State.ofConfig { Config.standard with gen := .gen2, cgb := false, timing.gbaUnit := 1 } State.reset.host

/-- The block with a storage variant. -/
def sWith (n : Nvs2) : State := setNvs2 n sG2

/-- An Eeprom of 512 bytes whose word 2 is 0x0123456789ABCDEF. -/
def eeprom6 : Eeprom :=
  freshEeprom .six { size := 512, fill := .known 0xFF,
                     cells := [(16, 0x01), (17, 0x23), (18, 0x45), (19, 0x67), (20, 0x89), (21, 0xAB),
                               (22, 0xCD), (23, 0xEF)] }

/-- A dual-bank flash in a command state. -/
def flash (st : FlashState) (last : FlashCommand) : Flash :=
  { freshFlash Config.standard (Image.filled 0x20000 0xFF) with state := st, last := last }

/-- A call frame that has not been made yet. -/
def call (f : Frame) (s : State) : State := { s with pending := [{ host := s.host, frame := f }] }

/-! ### Well-formedness: what the check refuses -/

theorem test_tick_too_long_is_ill_formed : (Instr.tick (2 ^ 63)).wellFormed = false := by decide

theorem test_tick_below_range_is_ill_formed : (Instr.tick (-2 ^ 63 - 1)).wellFormed = false := by decide

theorem test_forward_of_owned_register_is_ill_formed :
    (Instr.gbIoForwardRead 0x46).wellFormed = false := by decide

theorem test_tick_bounds_are_well_formed :
    (Instr.tick (2 ^ 63 - 1)).wellFormed = true ∧ (Instr.tick (-2 ^ 63)).wellFormed = true := by decide

/-! ### Decoding: bytes written out from the encodings of 30_encoding.md -/

/-- R170: the calls, a code for the call's name first (log 4). -/
theorem test_decode_calls :
    decode (callFrame [0, 1, 0, 0, 0x78, 0x56, 0x34, 0x12]) = .ok (.busRead8 .cpu .data 0x12345678)
    ∧ decode (callFrame [0, 2, 1, 1, 0x78, 0x56, 0x34, 0x12]) = .ok (.busRead16 .oam .fetch 0x12345678)
    ∧ decode (callFrame [0, 4, 0, 7, 0x78, 0x56, 0x34, 0x12])
        = .ok (.busRead32 (.chan .c3) .data 0x12345678)
    ∧ decode (callFrame [1, 1, 0, 4, 3, 2, 1, 0xAA, 0, 0, 0]) = .ok (.busWrite8 .cpu 0x01020304 0xAA)
    ∧ decode (callFrame [1, 2, 2, 4, 3, 2, 1, 0xAA, 0xBB, 0, 0])
        = .ok (.busWrite16 .vdma 0x01020304 0xBBAA)
    ∧ decode (callFrame [1, 4, 4, 4, 3, 2, 1, 0xAA, 0xBB, 0xCC, 0xDD])
        = .ok (.busWrite32 (.chan .c0) 0x01020304 0xDDCCBBAA)
    ∧ decode (callFrame [2, 0xFF, 0xFF, 0xFF, 0xFF, 0xFF, 0xFF, 0xFF, 0xFF]) = .ok (.tick (-1))
    ∧ decode (callFrame [3, 0]) = .ok .triggerVblank ∧ decode (callFrame [3, 1]) = .ok .triggerHblank
    ∧ decode (callFrame [3, 2]) = .ok .triggerFifoa ∧ decode (callFrame [3, 3]) = .ok .triggerFifob
    ∧ decode (callFrame [4, 1, 1, 0x5A, 0xA5]) = .ok (.loadGen1 (.bytes [0x5A, 0xA5]))
    ∧ decode (callFrame [4, 2, 0]) = .ok (.loadGen2 .absent)
    ∧ decode (callFrame [5, 1, 1]) = .ok (.serializeGen1 true)
    ∧ decode (callFrame [5, 2, 0]) = .ok (.serializeGen2 false) := by decide

/-- R220: a width outside 1, 2, 4 is rejected by name, whoever asks. -/
theorem test_decode_bad_width :
    decode (callFrame [0, 3, 0, 0, 0, 0, 0, 0x03]) = .error (.badWidth true)
    ∧ decode (callFrame [0, 3, 0, 5, 0, 0, 0, 0x03]) = .error (.badWidth false) := by decide

/-- R176, R177: the I/O registers written; the word is addr[15:0] ++ data[7:0], its lowest byte first. -/
theorem test_decode_io_writes :
    decode ⟨.gbWrite, [0xC1, 0x46, 0xFF, 0]⟩ = .ok (.gbDmaWrite 0xC1)
    ∧ decode ⟨.gbWrite, [0x01, 0x4F, 0xFF, 0]⟩ = .ok (.gbVbkWrite 0x01)
    ∧ decode ⟨.gbWrite, [0x01, 0x50, 0xFF, 0]⟩ = .ok (.gbBootWrite 0x01)
    ∧ decode ⟨.gbWrite, [0xC1, 0x51, 0xFF, 0]⟩ = .ok (.gbHdma1 0xC1)
    ∧ decode ⟨.gbWrite, [0x2F, 0x52, 0xFF, 0]⟩ = .ok (.gbHdma2 0x2F)
    ∧ decode ⟨.gbWrite, [0xE8, 0x53, 0xFF, 0]⟩ = .ok (.gbHdma3 0xE8)
    ∧ decode ⟨.gbWrite, [0x05, 0x54, 0xFF, 0]⟩ = .ok (.gbHdma4 0x05)
    ∧ decode ⟨.gbWrite, [0x01, 0x55, 0xFF, 0]⟩ = .ok (.gbHdma5Gdma 1)
    ∧ decode ⟨.gbWrite, [0x83, 0x55, 0xFF, 0]⟩ = .ok (.gbHdma5Hdma 3)
    ∧ decode ⟨.gbWrite, [0x00, 0x55, 0xFF, 1]⟩ = .ok (.gbHdma5Cancel 0)
    ∧ decode ⟨.gbWrite, [0xFF, 0x55, 0xFF, 1]⟩ = .ok (.gbHdma5Restart 0x7F)
    ∧ decode ⟨.gbWrite, [0x0D, 0x70, 0xFF, 0]⟩ = .ok (.gbSvbkWrite 0x0D)
    ∧ decode ⟨.gbWrite, [0x00, 0x47, 0xFF, 0]⟩ = .ok (.busWrite8 .cpu 0xFF47 0x00) := by decide

/-- R176: the I/O registers read, and an address the block does not own (R229). -/
theorem test_decode_io_reads :
    decode ⟨.gbRead, [0x46, 0xFF, 0]⟩ = .ok .gbDmaRead ∧ decode ⟨.gbRead, [0x4F, 0xFF, 0]⟩ = .ok .gbVbkRead
    ∧ decode ⟨.gbRead, [0x50, 0xFF, 0]⟩ = .ok .gbBootRead
    ∧ decode ⟨.gbRead, [0x51, 0xFF, 0]⟩ = .ok .gbHdma1Read
    ∧ decode ⟨.gbRead, [0x52, 0xFF, 0]⟩ = .ok .gbHdma2Read
    ∧ decode ⟨.gbRead, [0x53, 0xFF, 0]⟩ = .ok .gbHdma3Read
    ∧ decode ⟨.gbRead, [0x54, 0xFF, 0]⟩ = .ok .gbHdma4Read
    ∧ decode ⟨.gbRead, [0x55, 0xFF, 0]⟩ = .ok .gbHdma5Read
    ∧ decode ⟨.gbRead, [0x70, 0xFF, 0]⟩ = .ok .gbSvbkRead
    ∧ decode ⟨.gbRead, [0x00, 0xFF, 0]⟩ = .ok (.gbIoForwardRead 0x00)
    ∧ decode ⟨.gbRead, [0x7F, 0xFF, 0]⟩ = .ok (.gbIoForwardRead 0x7F)
    ∧ decode ⟨.gbRead, [0x80, 0xFF, 0]⟩ = .ok (.busRead8 .cpu .data 0xFF80) := by decide

/-- R178: the control registers of each family, at a low and a high address of their ranges. -/
theorem test_decode_control :
    decode ⟨.gbWrite, [0x0A, 0xFF, 0x1F, 0]⟩ = .ok (.aRamg 0x1FFF 0x0A)
    ∧ decode ⟨.gbWrite, [0x05, 0x00, 0x20, 0]⟩ = .ok (.aRomb0 0 0x05)
    ∧ decode ⟨.gbWrite, [0x01, 0x00, 0x40, 0]⟩ = .ok (.aRamb 0 0x01)
    ∧ decode ⟨.gbWrite, [0x01, 0xFF, 0x7F, 0]⟩ = .ok (.aMode 0x1FFF 0x01)
    ∧ decode ⟨.gbWrite, [0x0A, 0x34, 0x12, 1]⟩ = .ok (.bRamg 0x09 0x34 0x0A)
    ∧ decode ⟨.gbWrite, [0x13, 0x00, 0x21, 1]⟩ = .ok (.bRomb 0x10 0x00 0x13)
    ∧ decode ⟨.gbWrite, [0x05, 0x00, 0x40, 1]⟩ = .ok (.bIgnored 0 0x05)
    ∧ decode ⟨.gbWrite, [0x0A, 0x00, 0x00, 2]⟩ = .ok (.cRamg 0 0x0A)
    ∧ decode ⟨.gbWrite, [0x7F, 0xFF, 0x3F, 2]⟩ = .ok (.cRomb 0x1FFF 0x7F)
    ∧ decode ⟨.gbWrite, [0x0C, 0x00, 0x40, 2]⟩ = .ok (.cRamb 0 0x0C)
    ∧ decode ⟨.gbWrite, [0x01, 0x00, 0x60, 2]⟩ = .ok (.cLatch 0 0x01)
    ∧ decode ⟨.gbWrite, [0x0A, 0x00, 0x00, 3]⟩ = .ok (.dRamg 0 0x0A)
    ∧ decode ⟨.gbWrite, [0x05, 0xFF, 0x2F, 3]⟩ = .ok (.dRomb0 0xFFF 0x05)
    ∧ decode ⟨.gbWrite, [0x01, 0x00, 0x30, 3]⟩ = .ok (.dRomb1 0 0x01)
    ∧ decode ⟨.gbWrite, [0x09, 0x00, 0x40, 3]⟩ = .ok (.dRamb 0 0x09)
    ∧ decode ⟨.gbWrite, [0x01, 0x00, 0x60, 3]⟩ = .ok (.dIgnored 0 0x01)
    ∧ decode ⟨.gbWrite, [0x05, 0xFF, 0x7F, 4]⟩ = .ok (.noneIgnored 0x7FFF 0x05) := by decide

/-- R179: the RAM window and the ROM windows. -/
theorem test_decode_cartridge :
    decode ⟨.gbWrite, [0x77, 0x23, 0xA1, 0]⟩ = .ok (.cartRamWrite 0x123 0x77)
    ∧ decode ⟨.gbWrite, [0x07, 0x00, 0xA0, 1]⟩ = .ok (.rtcWriteS 0 7)
    ∧ decode ⟨.gbWrite, [0x07, 0x00, 0xA0, 2]⟩ = .ok (.rtcWriteM 0 7)
    ∧ decode ⟨.gbWrite, [0x07, 0x00, 0xA0, 3]⟩ = .ok (.rtcWriteH 0 7)
    ∧ decode ⟨.gbWrite, [0x07, 0x00, 0xA0, 4]⟩ = .ok (.rtcWriteDl 0 7)
    ∧ decode ⟨.gbWrite, [0x40, 0xFF, 0xBF, 5]⟩ = .ok (.rtcWriteDh 0x1FFF 0x40)
    ∧ decode ⟨.gbRead, [0xFF, 0x3F, 0]⟩ = .ok (.romReadLow 0x3FFF)
    ∧ decode ⟨.gbRead, [0x00, 0x40, 0]⟩ = .ok (.romReadHigh 0)
    ∧ decode ⟨.gbRead, [0xFF, 0x7F, 1]⟩ = .ok (.aRomMap 0x7FFF)
    ∧ decode ⟨.gbRead, [0x00, 0x40, 2]⟩ = .ok (.bRomMap 0x4000)
    ∧ decode ⟨.gbRead, [0x00, 0x40, 3]⟩ = .ok (.cRomMap 0x4000)
    ∧ decode ⟨.gbRead, [0x00, 0x40, 4]⟩ = .ok (.dRomMap 0x4000)
    ∧ decode ⟨.gbRead, [0x00, 0xA0, 0]⟩ = .ok (.cartRamRead 0)
    ∧ decode ⟨.gbRead, [0xFF, 0xBF, 1]⟩ = .ok (.aRamMap 0x1FFF)
    ∧ decode ⟨.gbRead, [0x00, 0xA2, 2]⟩ = .ok (.bRamMap 0x200)
    ∧ decode ⟨.gbRead, [0x00, 0xA0, 3]⟩ = .ok (.cRamMap 0)
    ∧ decode ⟨.gbRead, [0x00, 0xA0, 4]⟩ = .ok (.rtcRead 0)
    ∧ decode ⟨.gbRead, [0x00, 0xC0, 0]⟩ = .ok (.busRead8 .cpu .data 0xC000) := by decide

/-- R51, R180: the registers of the four channels, `B(k) = 0x040000B0 + 12k`. -/
theorem test_decode_dma_registers :
    decode ⟨.gbaIo, [0xB0, 0, 0, 4, 0, 2, 0, 0, 0, 0, 2]⟩ = .ok (.gbaDma0Sad .b4 0x02000000)
    ∧ decode ⟨.gbaIo, [0xB4, 0, 0, 4, 0, 2, 0, 0, 0, 0, 3]⟩ = .ok (.gbaDma0Dad .b4 0x03000000)
    ∧ decode ⟨.gbaIo, [0xB8, 0, 0, 4, 0, 1, 0, 2, 0, 0, 0]⟩ = .ok (.gbaDma0CntL .b2 2)
    ∧ decode ⟨.gbaIo, [0xBA, 0, 0, 4, 0, 1, 0, 0, 0x80, 0, 0]⟩ = .ok (.gbaDma0CntH .b2 0x8000)
    ∧ decode ⟨.gbaIo, [0xBA, 0, 0, 4, 2, 1, 0, 0x60, 0xA2, 0, 0]⟩ = .ok (.gbaDma0Enable 0x2260)
    ∧ decode ⟨.gbaIo, [0xBA, 0, 0, 4, 3, 1, 0, 0, 0, 0, 0]⟩ = .ok (.gbaDma0Disable 0)
    ∧ decode ⟨.gbaIo, [0xBA, 0, 0, 4, 1, 1, 0, 0, 0, 0, 0]⟩ = .ok (.gbaDma0Read 10 .b2)
    ∧ decode ⟨.gbaIo, [0xBC, 0, 0, 4, 0, 0, 0, 0x5A, 0, 0, 0]⟩ = .ok (.gbaDma1Sad .b1 0x5A)
    ∧ decode ⟨.gbaIo, [0xC0, 0, 0, 4, 0, 2, 0, 0xA0, 0, 0, 4]⟩ = .ok (.gbaDma1Dad .b4 0x040000A0)
    ∧ decode ⟨.gbaIo, [0xC4, 0, 0, 4, 0, 1, 0, 4, 0, 0, 0]⟩ = .ok (.gbaDma1CntL .b2 4)
    ∧ decode ⟨.gbaIo, [0xC6, 0, 0, 4, 0, 1, 0, 0x40, 0xB6, 0, 0]⟩ = .ok (.gbaDma1CntH .b2 0xB640)
    ∧ decode ⟨.gbaIo, [0xC6, 0, 0, 4, 2, 1, 0, 0x40, 0xB6, 0, 0]⟩ = .ok (.gbaDma1Enable 0x3640)
    ∧ decode ⟨.gbaIo, [0xC6, 0, 0, 4, 3, 1, 0, 0, 0x7F, 0, 0]⟩ = .ok (.gbaDma1Disable 0x7F00)
    ∧ decode ⟨.gbaIo, [0xC7, 0, 0, 4, 1, 0, 0, 0, 0, 0, 0]⟩ = .ok (.gbaDma1Read 11 .b1) := by decide

theorem test_decode_dma_registers_2_3 :
    decode ⟨.gbaIo, [0xC8, 0, 0, 4, 0, 2, 0, 0, 0, 0, 2]⟩ = .ok (.gbaDma2Sad .b4 0x02000000)
    ∧ decode ⟨.gbaIo, [0xCC, 0, 0, 4, 0, 2, 0, 0xA4, 0, 0, 4]⟩ = .ok (.gbaDma2Dad .b4 0x040000A4)
    ∧ decode ⟨.gbaIo, [0xD0, 0, 0, 4, 0, 1, 0, 4, 0, 0, 0]⟩ = .ok (.gbaDma2CntL .b2 4)
    ∧ decode ⟨.gbaIo, [0xD2, 0, 0, 4, 0, 1, 0, 0, 0x10, 0, 0]⟩ = .ok (.gbaDma2CntH .b2 0x1000)
    ∧ decode ⟨.gbaIo, [0xD2, 0, 0, 4, 2, 1, 0, 0, 0x90, 0, 0]⟩ = .ok (.gbaDma2Enable 0x1000)
    ∧ decode ⟨.gbaIo, [0xD2, 0, 0, 4, 3, 1, 0, 0, 0x10, 0, 0]⟩ = .ok (.gbaDma2Disable 0x1000)
    ∧ decode ⟨.gbaIo, [0xC8, 0, 0, 4, 1, 2, 0, 0, 0, 0, 0]⟩ = .ok (.gbaDma2Read 0 .b4)
    ∧ decode ⟨.gbaIo, [0xD4, 0, 0, 4, 0, 2, 0, 0, 0, 0, 8]⟩ = .ok (.gbaDma3Sad .b4 0x08000000)
    ∧ decode ⟨.gbaIo, [0xD8, 0, 0, 4, 0, 2, 0, 0, 0, 0, 0x0D]⟩ = .ok (.gbaDma3Dad .b4 0x0D000000)
    ∧ decode ⟨.gbaIo, [0xDC, 0, 0, 4, 0, 2, 0, 2, 0, 0, 0x80]⟩ = .ok (.gbaDma3CntL .b4 0x80000002)
    ∧ decode ⟨.gbaIo, [0xDE, 0, 0, 4, 0, 1, 0, 0, 0x80, 0, 0]⟩ = .ok (.gbaDma3CntH .b2 0x8000)
    ∧ decode ⟨.gbaIo, [0xDE, 0, 0, 4, 2, 1, 0, 0, 0xC4, 0, 0]⟩ = .ok (.gbaDma3Enable 0x4400)
    ∧ decode ⟨.gbaIo, [0xDE, 0, 0, 4, 3, 1, 0, 0, 0, 0, 0]⟩ = .ok (.gbaDma3Disable 0)
    ∧ decode ⟨.gbaIo, [0xDF, 0, 0, 4, 1, 0, 0, 0, 0, 0, 0]⟩ = .ok (.gbaDma3Read 11 .b1)
    ∧ decode ⟨.gbaIo, [0xE0, 0, 0, 4, 0, 0, 0, 0, 0, 0, 0]⟩ = .ok (.busRead8 .cpu .data 0x040000E0) := by decide

/-- R105, R106: the storage window and the EEPROM's page. -/
theorem test_decode_storage :
    decode ⟨.gbaIo, [0x10, 0, 0, 0x0E, 0, 1, 0, 0, 0, 0, 0]⟩ = .ok (.batteryRamRead 0x10 .b2)
    ∧ decode ⟨.gbaIo, [0x10, 0, 0, 0x0F, 1, 0, 0, 0x5C, 0, 0, 0]⟩
        = .ok (.batteryRamWrite 0x1000010 .b1 0x5C)
    ∧ decode ⟨.gbaIo, [0x00, 0, 0, 0x0E, 2, 0, 0, 0, 0, 0, 0]⟩ = .ok (.storageSniff 0 .b1 none)
    ∧ decode ⟨.gbaIo, [0x55, 0x55, 0, 0x0E, 3, 0, 0, 0xAA, 0, 0, 0]⟩
        = .ok (.storageSniff 0x5555 .b1 (some 0xAA))
    ∧ decode ⟨.gbaIo, [0x23, 0x01, 0, 0x0E, 4, 0, 0, 0, 0, 0, 0]⟩ = .ok (.flashRead 0x123 .b1)
    ∧ decode ⟨.gbaIo, [0, 0, 0xFF, 0x0F, 5, 0, 0, 0, 0, 0, 0]⟩ = .ok (.flashIdManuf 0x1FF .b1)
    ∧ decode ⟨.gbaIo, [1, 0, 0, 0x0E, 6, 0, 0, 0, 0, 0, 0]⟩ = .ok (.flashIdDevice 0 .b1)
    ∧ decode ⟨.gbaIo, [0, 0, 0, 0x0D, 0, 1, 3, 1, 0, 0, 0]⟩ = .ok (.eepromBitWrite .c3 0 1)
    ∧ decode ⟨.gbaIo, [0, 0, 0, 0x0D, 1, 1, 7, 0, 0, 0, 0]⟩ = .ok (.eepromDrainRead (.chan .c3) 0 .b2)
    ∧ decode ⟨.gbaIo, [0, 0xFF, 0xFF, 0x0D, 2, 1, 0, 1, 0, 0, 0]⟩ = .ok (.eepromCpuWrite 0xFFFF00 .b2 1)
    ∧ decode ⟨.gbaIo, [0, 0, 0, 0x0D, 3, 1, 0, 1, 0, 0, 0]⟩ = .ok (.eepromSniff .c0 0 1)
    ∧ decode ⟨.gbaIo, [0, 0, 0, 0x0D, 0, 1, 4, 1, 0, 0, 0]⟩ = .error .badOperand := by decide

/-- R182: the flash commands; the word is offset[15:0] ++ data[7:0], its lowest byte first. -/
theorem test_decode_flash :
    decode ⟨.flashCmd, [0xAA, 0x55, 0x55, 0]⟩ = .ok .flashUnlock1
    ∧ decode ⟨.flashCmd, [0x55, 0xAA, 0x2A, 0]⟩ = .ok .flashUnlock2
    ∧ decode ⟨.flashCmd, [0x90, 0x55, 0x55, 0]⟩ = .ok .flashIdEnter
    ∧ decode ⟨.flashCmd, [0xF0, 0x55, 0x55, 0]⟩ = .ok .flashIdExit
    ∧ decode ⟨.flashCmd, [0x80, 0x55, 0x55, 0]⟩ = .ok .flashErase
    ∧ decode ⟨.flashCmd, [0x10, 0x55, 0x55, 0]⟩ = .ok .flashEraseChip
    ∧ decode ⟨.flashCmd, [0x30, 0x56, 0x44, 0]⟩ = .ok (.flashEraseSector 0x4456)
    ∧ decode ⟨.flashCmd, [0xA0, 0x55, 0x55, 0]⟩ = .ok .flashProgram
    ∧ decode ⟨.flashCmd, [0xB0, 0x55, 0x55, 0]⟩ = .ok .flashBank
    ∧ decode ⟨.flashCmd, [0x5A, 0x34, 0x12, 1]⟩ = .ok (.flashProgramData 0x1234 0x5A)
    ∧ decode ⟨.flashCmd, [0x01, 0x00, 0x00, 2]⟩ = .ok (.flashBankData 0x01)
    ∧ decode ⟨.flashCmd, [0x56, 0xAA, 0x2A, 3]⟩ = .ok (.flashUnrecognized 0x2AAA 0x56)
    ∧ decode ⟨.flashCmd, [0x31, 0x56, 0x44, 4]⟩ = .ok (.busWrite8 .cpu 0x0E004456 0x31) := by decide

/-- R181: the streams, a start bit, the read/write bit, the address, the data and a stop bit. -/
theorem test_decode_streams :
    decode (streamFrame [true, true, false, false, false, false, true, false])
        = .ok (.eepromRead6 2 none)
    ∧ decode (streamFrame [true, true, false, false, false, false, true, false, false])
        = .ok (.eepromRead6 2 (some false))
    ∧ decode (streamFrame ([true, true] ++ List.replicate 13 false ++ [true]))
        = .ok (.eepromRead14 1 none)
    ∧ decode (streamFrame ([true, false, false, false, false, false, true, true]
        ++ List.replicate 63 false ++ [true])) = .ok (.eepromWrite6 3 1 none)
    ∧ decode (streamFrame ([true, false] ++ [true] ++ List.replicate 13 false ++ [true]
        ++ List.replicate 63 false ++ [false])) = .ok (.eepromWrite14 0x2000 0x8000000000000000 (some false))
    ∧ decode (streamFrame [false, true, false, false, false, false, true, false])
        = .error (.badStream [false, true, false, false, false, false, true, false])
    ∧ decode (streamFrame [true, true, false, false, false, false, true])
        = .error (.badStream [true, true, false, false, false, false, true]) := by decide

/-- R187: the host's numbering of a table word. -/
theorem test_decode_table_words :
    decodeTableWord 24 0xFF46C1 = some (.gbDmaWrite 0xC1)
    ∧ decodeTableWord 24 0x5555AA = some .flashUnlock1 ∧ decodeTableWord 16 0xFF44 = some (.gbIoForwardRead 0x44)
    ∧ decodeTableWord 32 0x040000BA = some (.gbaDma0CntH .b1 0) ∧ decodeTableWord 8 0 = none := by decide

/-! ### Small steps: expected values of 95_test_vectors.md, by vector number -/

/-- V11: the echo of work RAM. -/
theorem test_echo_write : after (exec (.busWrite8 .cpu 0xE123 0x5A) sA) (fun t => t.g1.wram.read 0x123)
    = some 0x5A := by decide

/-- V11, the read through the echo. -/
theorem test_echo_read : after (exec (.busRead8 .cpu .data 0xE001) sA) (·.result)
    = some (.value 0x22) := by decide

/-- V10: a wide access of generation 1. -/
theorem test_wide_access_refused : refusal (exec (.busRead16 .cpu .data 0xC000) sA) = some .widthGen1
    ∧ refusal (exec (.busWrite32 .cpu 0xC000 0) sA) = some .widthGen1 := by decide

/-- V27: high RAM. -/
theorem test_high_ram : after (exec (.busWrite8 .cpu 0xFF80 0x42) sA) (fun t => t.g1.hram.read 0)
    = some 0x42 := by decide

/-- V22: video RAM in mode 3 with the screen on. -/
theorem test_gated_write_dropped :
    after (exec (.busWrite8 .cpu 0x8000 0x11) { sA with host.ppu := ⟨true, .mode3⟩ })
      (fun t => t.g1.vram.cells) = some [] := by decide

/-- V30, V31: little-endian and aligned. -/
theorem test_store_word : after (exec (.busWrite32 .cpu 0x03000002 0x11223344) sG2)
    (fun t => (t.g2.iwram.read 0, t.g2.iwram.read 3)) = some (0x44, 0x11) := by decide

/-- V44: a halfword of object memory. -/
theorem test_store_half : after (exec (.busWrite16 .cpu 0x07000000 0x1234) sG2)
    (fun t => (t.g2.oam2.read 0, t.g2.oam2.read 1)) = some (0x34, 0x12) := by decide

/-- V34: open bus. -/
theorem test_open_bus : after (exec (.busRead16 .cpu .data 0x01000002)
    { sG2 with host.cpu.prefetch := 0xE3A00001 }) (·.result) = some (.value 0xE3A0) := by decide

/-- V35: open bus in thumb state. -/
theorem test_open_bus_thumb : after (exec (.busRead32 .cpu .data 0x10000000)
    { sG2 with host.cpu := ⟨0x12345678, true, false⟩ }) (·.result) = some (.value 0x56785678) := by decide

/-- V39: beyond the end of the ROM. -/
theorem test_rom_beyond_end : after (exec (.busRead32 .cpu .data 0x08123454) sG2) (·.result)
    = some (.value 0x1A2B1A2A) := by decide

/-- R173, V133. -/
theorem test_tick_negative : refusal (exec (.tick (-1)) sA) = some .negativeTick := by decide

/-- V52: the start delay of the object-memory DMA runs out, and the bus is blocked. -/
theorem test_tick_starts_object_dma :
    after (exec (.tick 4) { sA with g1.oamDma := ⟨.starting, 0xC0, 0xC000, 0, 4⟩ })
      (fun t => (t.g1.oamDma.state, t.g1.blocked)) = some (.active, .external) := by decide

/-- V50, V61. -/
theorem test_object_dma_write : after (exec (.gbDmaWrite 0xE1) sA)
    (fun t => (t.g1.oamDma.state, t.g1.oamDma.src, t.g1.oamDma.counter)) = some (.starting, 0xC100, 4) := by
  decide

theorem test_object_dma_read : after (exec .gbDmaRead sA) (·.result) = some (.value 0xFF) := by decide

/-- V14. -/
theorem test_vbk_write : after (exec (.gbVbkWrite 0x03) sColour) (·.g1.vbk) = some 1 := by decide

/-- V13, V15. -/
theorem test_vbk_read : after (exec .gbVbkRead sColour) (·.result) = some (.value 0xFE)
    ∧ after (exec .gbVbkRead sA) (·.result) = some (.value 0xFF) := by decide

/-- V17. -/
theorem test_svbk_write : after (exec (.gbSvbkWrite 0x0D) sColour) (·.g1.svbk) = some 5 := by decide

theorem test_svbk_read : after (exec .gbSvbkRead { sColour with g1.svbk := 5 }) (·.result)
    = some (.value 0xFD) := by decide

/-- V19, V20. -/
theorem test_boot_write : after (exec (.gbBootWrite 0) { sA with g1.bootEnabled := true }) (·.g1.bootEnabled)
      = some true
    ∧ after (exec (.gbBootWrite 1) { sA with g1.bootEnabled := true }) (·.g1.bootEnabled) = some false := by
  decide

/-- V190. -/
theorem test_hdma_source : after (exec (.gbHdma1 0xC1) sColour) (·.g1.vdma.src) = some 0xC100
    ∧ after (exec (.gbHdma2 0x2F) { sColour with g1.vdma.src := 0xC100 }) (·.g1.vdma.src)
        = some 0xC120 := by decide

theorem test_hdma_destination : after (exec (.gbHdma3 0xE8) sColour) (·.g1.vdma.dst) = some 0x0800
    ∧ after (exec (.gbHdma4 0x05) { sColour with g1.vdma.dst := 0x0800 }) (·.g1.vdma.dst)
        = some 0x0800 := by decide

/-- V191. -/
theorem test_general_transfer : after (exec (.gbHdma5Gdma 1) sColour)
    (fun t => (t.g1.vdma.state, t.g1.vdma.blocks, cpuStalled t)) = some (.active, 2, true) := by decide

/-- V194. -/
theorem test_hblank_transfer : after (exec (.gbHdma5Hdma 3) sColour)
    (fun t => (t.g1.vdma.state, t.g1.vdma.blocks)) = some (.paused, 4) := by decide

/-- V196, V197: 3 blocks left. -/
theorem test_cancel_and_restart :
    let s := { sColour with g1.vdma.state := .paused, g1.vdma.mode := .hblank, g1.vdma.blocks := 3 }
    after (exec (.gbHdma5Cancel 0) s) (·.g1.vdma.status) = some 0x82
    ∧ refusal (exec (.gbHdma5Restart 0) s) = some .vdmaRestart
    ∧ after (exec .gbHdma5Read s) (·.result) = some (.value 0x02) := by decide

/-- V195: the event. -/
theorem test_hblank_event :
    after (exec .triggerHblank { sColour with g1.vdma.state := .paused, g1.vdma.mode := .hblank })
      (·.g1.vdma.state) = some .active := by decide

/-- R228. -/
theorem test_fifo_event_gen1 : refusal (exec .triggerFifoa sA) = some .triggerGen1
    ∧ refusal (exec .triggerFifob sA) = some .triggerGen1 := by decide

/-- V26: the forwarded read and write. -/
theorem test_forward : after (exec (.gbIoForwardRead 0) sA) (·.outs) = some [.ioRead8 0xFF00]
    ∧ after (exec (.busWrite8 .cpu 0xFF00 0x12) sA) (·.outs) = some [.ioWrite8 0xFF00 0x12] := by decide

/-- V71, V72. -/
theorem test_a_rom_bank : after (exec (.aRomb0 0 0x20) sA) (·.g1.bank.romBank) = some 1
    ∧ after (exec (.aRomb0 0 0x3F) sA) (·.g1.bank.romBank) = some 0x1F := by decide

/-- V78, V83. -/
theorem test_a_ram_enable : after (exec (.aRamg 0x1FFF 0xFA) sA) (·.g1.bank.ramEnabled) = some true
    ∧ after (exec (.aRamg 0 0x0B) (ramOpen sA 0)) (·.g1.bank.ramEnabled) = some false := by decide

/-- V73, V74: banks 0x21 and 0x20. -/
theorem test_a_rom_map : after (exec (.aRomMap 0x4000) { sA with g1.bank.ramBank := 1 }) (·.result)
      = some (.value 0x21)
    ∧ after (exec (.aRomMap 0) { sA with g1.bank.ramBank := 1, g1.bank.mode := 1 }) (·.result)
      = some (.value 0x20) := by decide

/-- V79, V80. -/
theorem test_a_ram_map : after (exec (.cartRamWrite 0 0x34) (ramOpen sA 1)) (fun t => ramByte t 0)
      = some 0x34
    ∧ after (exec (.cartRamWrite 0 0x56) { ramOpen sA 1 with g1.bank.mode := 1 })
        (fun t => ramByte t 0x2000) = some 0x56 := by decide

/-- V77, V82. -/
theorem test_ram_disabled : after (exec (.aRamMap 0) sA) (·.result) = some (.value 0xFF)
    ∧ after (exec (.cartRamRead 0) sA) (·.result) = some (.value 0xFF) := by decide

theorem test_a_ram_bank_and_mode : after (exec (.aRamb 0 0x07) sA) (·.g1.bank.ramBank) = some 3
    ∧ after (exec (.aMode 0 0x03) sA) (·.g1.bank.mode) = some 1 := by decide

/-- V84, V85: address bit 8 chooses. -/
theorem test_b_control : after (exec (.bRomb 0x10 0 0x13) sB) (·.g1.bank.romBank) = some 3
    ∧ after (exec (.bRomb 0 0 0x0A) sB) (fun t => (t.g1.bank.romBank, t.g1.bank.ramEnabled))
        = some (0x0A, false)
    ∧ after (exec (.bRamg 0 0 0x0A) sB) (·.g1.bank.ramEnabled) = some true := by decide

/-- V86: a cell of 4 bits, repeated. -/
theorem test_b_ram : after (exec (.cartRamWrite 0x200 0x5C) (ramOpen sB 0)) (fun t => ramByte t 0) = some 0x0C
    ∧ after (exec (.bRamMap 0x1E00) { ramOpen sB 0 with g1.nvs1 := some ⟨(Image.filled 512 0).write 0 0x0C, true⟩ })
        (·.result) = some (.value 0xFC) := by decide

theorem test_b_ignored_and_map : after (exec (.bIgnored 0 5) sB) (·.g1.bank) = some BankState.reset
    ∧ after (exec (.bRomMap 0x4000) sB) (·.result) = some (.value 1) := by decide

/-- V88, V89. -/
theorem test_c_rom_bank : after (exec (.cRomb 0 0x80) sC) (·.g1.bank.romBank) = some 1
    ∧ after (exec (.cRomb 0 0x7F) sC) (·.g1.bank.romBank) = some 0x7F := by decide

theorem test_c_ram_control : after (exec (.cRamg 0 0x0A) sC) (·.g1.bank.ramEnabled) = some true
    ∧ after (exec (.cRamb 0 0x0D) sC) (·.g1.bank.ramBank) = some 0x0D := by decide

/-- R295: a RAM-bank write for an absent device is ignored (log 25). -/
theorem test_ram_bank_absent :
    after (exec (.cRamb 0 2) (gen1 (cartOf .c 128 0 false false) false)) (·.g1.bank.ramBank) = some 0
    ∧ after (exec (.dRamb 0 9) (gen1 (cartOf .d 512 0 false true) false))
        (fun t => (t.g1.rumble, t.g1.bank.ramBank)) = some (true, 0) := by decide

/-- V103: a cartridge with rumble and 0x10000 bytes of RAM can be built (log 26). -/
theorem test_rumble_ram_is_legal : constructionRefusal (gen1 (cartOf .d 512 0x10000 false true) false).cfg = none
    ∧ constructionRefusal (gen1 (cartOf .d 512 0x10000 false false) false).cfg = some .metadata := by decide

/-- V91: no register selected. -/
theorem test_c_ram_map : after (exec (.cRamMap 0) (ramOpen sC 0x0D)) (·.result) = some (.value 0xFF)
    ∧ after (exec (.cRomMap 0x4000) sC) (·.result) = some (.value 1) := by decide

/-- V92, V120: a latch needs 0x00 and then 0x01; 90061 s are 1 day, 1 h, 1 min, 1 s. -/
theorem test_c_latch : after (exec (.cLatch 0 1) (sClock 90061 8)) (·.g1.rtc.latched) = some ⟨0, 0, 0, 0⟩
    ∧ after (exec (.cLatch 0 1) { sClock 90061 8 with g1.bank.latchLast := 0 }) (·.g1.rtc.latched)
        = some ⟨1, 1, 1, 1⟩ := by decide

/-- V122: 512 days and 5 seconds. -/
theorem test_c_latch_carries :
    after (exec (.cLatch 0 1) { sClock 44236805 8 with g1.bank.latchLast := 0 })
      (fun t => (t.g1.rtc.latched, t.g1.rtc.carry, t.g1.rtc.reference))
      = some (⟨5, 0, 0, 0⟩, true, 44236800) := by decide

/-- V98, V101. -/
theorem test_d_rom_bank : after (exec (.dRomb0 0 0) sD) (·.g1.bank.romBank) = some 0
    ∧ after (exec (.dRomb1 0 0xFF) { sD with g1.bank.romBank := 5 }) (·.g1.bank.romBank) = some 0xFF05 := by
  decide

/-- V98, V99. -/
theorem test_d_rom_map :
    after (exec (.dRomMap 0x4000) { sD with g1.bank.romBank := 0x0105 }) (·.result) = some (.value 5)
    ∧ after (exec (.dRomMap 0x4000) { sD with g1.bank.romBank := 0 }) (·.result) = some (.value 0) := by
  decide

/-- V103, V104. -/
theorem test_d_rumble : after (exec (.dRamb 0 9) sD) (fun t => (t.g1.rumble, t.g1.bank.ramBank)) = some (true, 1)
    ∧ after (exec (.dRamb 0 7) { sD with g1.rumble := true, g1.bank.rumble := 1 })
        (fun t => (t.g1.rumble, t.g1.bank.ramBank)) = some (false, 7) := by decide

/-- V105. -/
theorem test_d_ignored_and_ram : after (exec (.dIgnored 0 1) sD) (·.g1.bank) = some BankState.reset
    ∧ after (exec (.dRamg 0 0x0A) sD) (·.g1.bank.ramEnabled) = some true := by decide

/-- V106, V107. -/
theorem test_rom_only : after (exec (.cartRamWrite 0x10 0x12) sNone) (fun t => ramByte t 0x10) = some 0x12
    ∧ after (exec (.noneIgnored 0x2000 5) sNone) (·.g1.bank) = some BankState.reset
    ∧ after (exec (.romReadHigh 0) sNone) (·.result) = some (.value 1)
    ∧ after (exec (.romReadLow 0) sNone) (·.result) = some (.value 0) := by decide

/-- V126, V127. -/
theorem test_clock_ranges : refusal (exec (.rtcWriteS 0 60) (sClock 0 8)) = some .rtcRange
    ∧ refusal (exec (.rtcWriteM 0 60) (sClock 0 9)) = some .rtcRange
    ∧ refusal (exec (.rtcWriteH 0 24) (sClock 0 10)) = some .rtcRange := by decide

/-- R423: a byte with a bit above the field is out of range too: 0x45 to S, 0x80 to M, 0x20 to H (log 29). -/
theorem test_clock_bytes : refusal (exec (.rtcWriteS 0 0x45) (sClock 0 8)) = some .rtcRange
    ∧ refusal (exec (.rtcWriteM 0 0x80) (sClock 0 9)) = some .rtcRange
    ∧ refusal (exec (.rtcWriteH 0 0x20) (sClock 0 10)) = some .rtcRange := by decide

/-- V125: 3725 s, minutes set to 10. -/
theorem test_clock_minutes : after (exec (.rtcWriteM 0 10) (sClock 3725 9))
    (fun t => (elapsed t.g1.rtc 3725, t.g1.rtc.latched.m)) = some (4205, 10) := by decide

/-- V125, the same for seconds and hours: 3725 s are 1 h, 2 min, 5 s. -/
theorem test_clock_seconds_hours :
    after (exec (.rtcWriteS 0 7) (sClock 3725 8)) (fun t => elapsed t.g1.rtc 3725) = some 3727
    ∧ after (exec (.rtcWriteH 0 3) (sClock 3725 10)) (fun t => elapsed t.g1.rtc 3725) = some 10925 := by decide

/-- V128: three days, the low day byte set to 16. -/
theorem test_clock_day_low : after (exec (.rtcWriteDl 0 0x10) (sClock 259200 11))
    (fun t => elapsed t.g1.rtc 259200) = some 1382400 := by decide

/-- V129, V130: day bit 8; the halt. -/
theorem test_clock_day_high :
    after (exec (.rtcWriteDh 0 1) (sClock 1382400 12)) (fun t => elapsed t.g1.rtc 1382400) = some 23500800
    ∧ after (exec (.rtcWriteDh 0 0x40) (sClock 100 12)) (fun t => (t.g1.rtc.halted, elapsed t.g1.rtc 200))
        = some (true, 100) := by decide

/-- V120: the latched copy is read. -/
theorem test_clock_read :
    after (exec (.rtcRead 0) { sClock 7 9 with g1.rtc.latched := ⟨1, 2, 3, 257⟩ }) (·.result)
      = some (.value 2)
    ∧ after (exec (.rtcRead 0) { sClock 7 12 with g1.rtc.latched := ⟨1, 2, 3, 257⟩ }) (·.result)
      = some (.value 1) := by decide

/-! #### Generation 2 -/

/-- V212: the count is cut by its mask; R51: the source's upper half by its own. -/
theorem test_dma0_registers :
    after (exec (.gbaDma0CntL .b2 0xFFFF) sG2) (fun t => t.g2.dma.c0.cntL.value) = some 0x3FFF
    ∧ after (exec (.gbaDma0Sad .b4 0xFFFF0004) sG2) (fun t => (t.g2.dma.c0.sadL.value, t.g2.dma.c0.sadH.value))
        = some (4, 0x07FF)
    ∧ after (exec (.gbaDma0Dad .b4 0xFFFF0004) sG2) (fun t => t.g2.dma.c0.dadH.value) = some 0x07FF := by
  decide

theorem test_dma1_registers :
    after (exec (.gbaDma1CntL .b2 0xFFFF) sG2) (fun t => t.g2.dma.c1.cntL.value) = some 0x3FFF
    ∧ after (exec (.gbaDma1Sad .b4 0xFFFF0004) sG2) (fun t => t.g2.dma.c1.sadH.value) = some 0x0FFF
    ∧ after (exec (.gbaDma1Dad .b2 0x00A0) sG2) (fun t => t.g2.dma.c1.dadL.value) = some 0x00A0 := by decide

theorem test_dma2_registers :
    after (exec (.gbaDma2CntL .b1 0xFF) sG2) (fun t => t.g2.dma.c2.cntL.value) = some 0x00FF
    ∧ after (exec (.gbaDma2Sad .b4 0xFFFF0004) sG2) (fun t => t.g2.dma.c2.sadH.value) = some 0x0FFF
    ∧ after (exec (.gbaDma2Dad .b4 0xFFFF00A4) sG2) (fun t => t.g2.dma.c2.dadH.value) = some 0x07FF := by
  decide

theorem test_dma3_registers :
    after (exec (.gbaDma3CntL .b2 0xFFFF) sG2) (fun t => t.g2.dma.c3.cntL.value) = some 0xFFFF
    ∧ after (exec (.gbaDma3Sad .b4 0xFFFF0004) sG2) (fun t => t.g2.dma.c3.sadH.value) = some 0x0FFF
    ∧ after (exec (.gbaDma3Dad .b4 0xFFFF0004) sG2) (fun t => t.g2.dma.c3.dadH.value) = some 0x0FFF := by
  decide

/-- V210, V211: a count of 0. -/
theorem test_enable_counts :
    after (exec (.gbaDma0Enable 0) sG2) (fun t => (t.g2.dma.c0.remaining, t.g2.dma.c0.state))
      = some (0x4000, .starting)
    ∧ after (exec (.gbaDma3Enable 0) sG2) (fun t => t.g2.dma.c3.remaining) = some 0x10000 := by decide

/-- V213, V216. -/
theorem test_enable_refused : refusal (exec (.gbaDma0CntH .b2 0x8180) sG2) = some .dmaSrcCtl3
    ∧ refusal (exec (.gbaDma0CntH .b2 0xB000) sG2) = some .dmaSpecialTiming := by decide

/-- V214, V217. -/
theorem test_enable_refused_by_channel : refusal (exec (.gbaDma3CntH .b2 0x8800) sG2) = some .dmaDrq
    ∧ refusal (exec (.gbaDma1CntH .b2 0xB600) sG2) = some .dmaFifoDest := by decide

/-- V215, V223. -/
theorem test_enable_masks_and_fifo :
    after (exec (.gbaDma0CntH .b2 0x8800) sG2) (fun t => t.g2.dma.c0.cntH.value) = some 0x8000
    ∧ after (exec (.gbaDma1Enable 0x3640) (setChan .c1 { sG2.g2.dma.c1 with
          dadL.value := 0x00A0, dadH.value := 0x0400 } sG2))
        (fun t => (t.g2.dma.c1.state, t.g2.dma.c1.fifo, t.g2.dma.c1.remaining)) = some (.paused, true, 4) := by
  decide

theorem test_enable_2 : after (exec (.gbaDma2Enable 0x1000) sG2) (fun t => t.g2.dma.c2.state) = some .paused
    ∧ after (exec (.gbaDma2CntH .b1 0xFF) sG2) (fun t => t.g2.dma.c2.cntH.value) = some 0x00E0 := by decide

/-- A channel that waits with its enable bit set. -/
def waiting (k : Chan) (ctl : Half) : State :=
  setChan k { chan sG2 k with cntH.value := ctl, state := .paused, remaining := 4 } sG2

/-- V222. -/
theorem test_disable_waiting :
    after (exec (.gbaDma0Disable 0) (waiting .c0 0xA260)) (fun t => (t.g2.dma.c0.state, t.g2.dma.c0.cntH.value))
      = some (.inactive, 0)
    ∧ after (exec (.gbaDma1Disable 0) (waiting .c1 0xA260)) (fun t => t.g2.dma.c1.state) = some .inactive
    ∧ after (exec (.gbaDma2Disable 0) (waiting .c2 0xA260)) (fun t => t.g2.dma.c2.state) = some .inactive
    ∧ after (exec (.gbaDma3Disable 0) (waiting .c3 0xA260)) (fun t => t.g2.dma.c3.state) = some .inactive := by
  decide

/-- R492: the control register is read; R44: V1's mask. -/
theorem test_dma_reads :
    after (exec (.gbaDma0Read 10 .b2) (waiting .c0 0xA260)) (·.result) = some (.value 0xA260)
    ∧ after (exec (.gbaDma1Read 11 .b1) (waiting .c1 0xA260)) (·.result) = some (.value 0xA2)
    ∧ after (exec (.gbaDma2Read 10 .b1) (waiting .c2 0xA260)) (·.result) = some (.value 0x60)
    ∧ after (exec (.gbaDma3Read 0 .b4) sG2) (·.draws) = some 18 := by decide

/-- V220, V221: HBlank starts it, VBlank does not. -/
theorem test_triggers :
    after (exec .triggerHblank (waiting .c0 0xA260)) (fun t => t.g2.dma.c0.state) = some .starting
    ∧ after (exec .triggerVblank (waiting .c0 0xA260)) (fun t => t.g2.dma.c0.state) = some .paused
    ∧ after (exec .triggerVblank (waiting .c0 0x9260)) (fun t => t.g2.dma.c0.state) = some .starting := by decide

/-- V224, V225. -/
theorem test_fifo_triggers :
    let s := setChan .c1 { (waiting .c1 0xB640).g2.dma.c1 with fifo := true, dst := 0x40000A0 } sG2
    after (exec .triggerFifoa s) (fun t => t.g2.dma.c1.state) = some .starting
    ∧ after (exec .triggerFifob s) (fun t => t.g2.dma.c1.state) = some .paused := by decide

/-- V218: the last unit of a transfer with `IRQ` set. -/
theorem test_transfer_ends :
    after (exec (.tick 1) (setChan .c3 { sG2.g2.dma.c3 with
        cntH.value := 0xC000, state := .active, src := 0x2000000, dst := 0x3000000, remaining := 1,
        counter := 1 } { sG2 with g2.ewram.cells := [(0, 0xDD), (1, 0xCC)] }))
      (fun t => (t.g2.iwram.cells, t.outs, t.g2.dma.c3.cntH.value, t.g2.dma.c3.state))
      = some ([(0, 0xDD), (1, 0xCC)], [.interrupt .c3], 0x4000, .inactive) := by decide

/-- R491, R653: a unit that writes its own control (WIDTH, SRC_CTL decrement, DEST_CTL fixed) is adjusted by the
control it began with (log 30). -/
theorem test_own_control :
    after (exec (.tick 1) (setChan .c0 { sG2.g2.dma.c0 with
        cntH.value := 0x8000, state := .active, src := 0x2000000, dst := 0x40000BA, remaining := 2,
        counter := 1 } { sG2 with g2.ewram.cells := [(0, 0xC0), (1, 0x84)] }))
      (fun t => (t.g2.dma.c0.cntH.value, t.g2.dma.c0.src, t.g2.dma.c0.dst)) = some (0x84C0, 0x2000002, 0x40000BC) := by
  decide

/-- R323, R324: the example rows. -/
theorem test_battery_ram :
    after (exec (.batteryRamWrite 0x10 .b1 0x5C) (sWith (.batteryRam (Image.filled 0x8000 0xFF))))
      (·.g2.nvs2.images.map (·.cells)) = some [[(0x10, 0x5C)]]
    ∧ after (exec (.batteryRamRead 0x10010 .b2)
        (sWith (.batteryRam ((Image.filled 0x8000 0xFF).write 0x10 0x5C)))) (·.result)
      = some (.value 0x5C5C) := by decide

/-- R565. -/
theorem test_sniff_flash :
    after (exec (.storageSniff 0x5555 .b1 (some 0xAA)) sG2) (·.g2.nvs2.images.map (·.size)) = some [0x10000]
    ∧ after (exec (.storageSniff 0 .b1 none) sG2) (·.result) = some (.value 0xFF) := by decide

theorem test_sniff_battery_ram :
    after (exec (.storageSniff 0 .b1 (some 0x12)) sG2)
      (·.g2.nvs2.images.map fun m => (m.size, m.read 0)) = some [(0x8000, 0x12)] := by decide

/-- V151, V152. -/
theorem test_eeprom_drain :
    after (exec (.eepromDrainRead .cpu 0 .b4) (sWith (.eeprom { eeprom6 with staged := [true, false] })))
      (·.result) = some (.value 1)
    ∧ after (exec (.eepromDrainRead .cpu 1 .b1) (sWith (.eeprom { eeprom6 with staged := [true, false] })))
      (fun t => (t.result, t.g2.nvs2)) = some (.value 0, .eeprom { eeprom6 with staged := [false] }) := by decide

/-- V153, and R331. -/
theorem test_eeprom_writes :
    refusal (exec (.eepromCpuWrite 0 .b2 1) (sWith (.eeprom eeprom6))) = some .eepromCpuWrite
    ∧ after (exec (.eepromBitWrite .c3 0 3) (sWith (.eeprom eeprom6))) (·.g2.nvs2)
        = some (.eeprom { eeprom6 with pending := [true] })
    ∧ after (exec (.eepromSniff .c3 0 0) sG2) (fun t => t.g2.dma.c3.eepromWrote) = some true := by decide

/-- The bits a read request stages after the preamble. -/
def stagedBits (i : Instr) (e : Eeprom) : List Bool :=
  ((after (exec i (sWith (.eeprom e))) fun t =>
    match t.g2.nvs2 with
    | .eeprom d => d.staged.drop 3
    | _ => []).getD [])

/-- The write that a stream puts in flight. -/
def inFlight (i : Instr) (e : Eeprom) : Option EepromBusy :=
  (after (exec i (sWith (.eeprom e))) fun t =>
    match t.g2.nvs2 with
    | .eeprom d => d.busy
    | _ => none).getD none

set_option maxRecDepth 20000 in
/-- V140: the word 0x0123456789ABCDEF after the preamble, most significant bit first. -/
theorem test_eeprom_read6 :
    (stagedBits (.eepromRead6 2 none) eeprom6).take 8
      = [false, false, false, false, false, false, false, true]
    ∧ (stagedBits (.eepromRead6 2 none) eeprom6).drop 56
      = [true, true, true, false, true, true, true, true] := by decide

set_option maxRecDepth 20000 in
/-- V145: an address with no word. -/
theorem test_eeprom_read14 :
    (stagedBits (.eepromRead14 1024 none) (freshEeprom .fourteen (Image.filled 8192 0))).take 2
      = [true, true] := by decide

set_option maxRecDepth 20000 in
/-- V147. -/
theorem test_eeprom_write6 :
    inFlight (.eepromWrite6 1 0xFFFF0000FFFF0000 none) eeprom6
      = some ⟨10000, 1, 0xFFFF0000FFFF0000⟩ := by decide

set_option maxRecDepth 20000 in
/-- V144: the other length is discarded. -/
theorem test_eeprom_write14 : inFlight (.eepromWrite14 1 0 none) eeprom6 = none := by decide

/-- What a flash call leaves of the command machine. -/
def machine (i : Instr) (f : Flash) : Option (FlashState × FlashCommand × BitVec 1 × Bool) :=
  after (exec i (sWith (.flash f))) fun t =>
    match t.g2.nvs2 with
    | .flash g => (g.state, g.last, g.bank, g.busy.isSome)
    | _ => (f.state, f.last, f.bank, false)

/-- S5a to S5c. -/
theorem test_flash_unlock : machine .flashUnlock1 (flash .notStarted .none) = some (.starting, .none, 0, false)
    ∧ machine .flashUnlock2 (flash .starting .none) = some (.ready, .none, 0, false)
    ∧ machine (.flashUnrecognized 0x2AAA 0x56) (flash .starting .erase) = some (.notStarted, .none, 0, false) := by
  decide

/-- V170, V171. -/
theorem test_flash_id : machine .flashIdEnter (flash .ready .none) = some (.notStarted, .idEnter, 0, false)
    ∧ machine .flashIdExit (flash .ready .none) = some (.notStarted, .idExit, 0, false) := by decide

/-- V176 to V178. -/
theorem test_flash_erase_chip :
    machine .flashErase (flash .ready .none) = some (.notStarted, .erase, 0, false)
    ∧ machine .flashEraseChip (flash .ready .erase) = some (.notStarted, .eraseChip, 0, true)
    ∧ machine .flashEraseChip (flash .ready .idEnter) = some (.notStarted, .none, 0, false) := by decide

/-- V179. -/
theorem test_flash_erase_sector : after (exec (.flashEraseSector 0x3456) (sWith (.flash (flash .ready .erase))))
    (fun t => match t.g2.nvs2 with
      | .flash g => g.busy
      | _ => none) = some (some ⟨1000, .eraseSector 0x3000⟩) := by decide

/-- V172, V183. -/
theorem test_flash_program :
    machine .flashProgram (flash .ready .none) = some (.command, .program, 0, false)
    ∧ after (exec (.flashProgramData 0x10 0x77) (sWith (.flash { flash .command .program with bank := 1 })))
        (fun t => match t.g2.nvs2 with
          | .flash g => g.busy
          | _ => none) = some (some ⟨100, .program 0x10010 0x77⟩) := by decide

/-- V180, V181. -/
theorem test_flash_bank :
    machine .flashBank (flash .ready .none) = some (.command, .bankSwitch, 0, false)
    ∧ machine (.flashBankData 3) (flash .command .bankSwitch) = some (.notStarted, .bankSwitch, 1, false)
    ∧ machine (.flashUnrecognized 1 1) (flash .command .bankSwitch) = some (.notStarted, .none, 0, false) := by
  decide

/-- V170, V185. -/
theorem test_flash_reads :
    after (exec (.flashRead 0x10 .b2) (sWith (.flash { flash .notStarted .none with
      bytes := (Image.filled 0x20000 0xFF).write 0x10 0x77 }))) (·.result) = some (.value 0x7777)
    ∧ after (exec (.flashIdManuf 0 .b1) (sWith (.flash { flash .notStarted .none with
        idMode := true, chipId := ⟨0x62, 0x13⟩ }))) (·.result) = some (.value 0x62)
    ∧ after (exec (.flashIdDevice 0 .b1) (sWith (.flash { flash .notStarted .none with
        idMode := true, chipId := ⟨0x62, 0x13⟩ }))) (·.result) = some (.value 0x13) := by decide

/-- V174: the program takes effect in the cycle in which its count runs out. -/
theorem test_flash_completes :
    after (exec (.tick 1) (sWith (.flash { flash .notStarted .program with
      busy := some ⟨1, .program 0x123 0x5A⟩ }))) (·.g2.nvs2.images.map (·.cells)) = some [[(0x123, 0x5A)]] := by
  decide

/-- R15, R558: a clock saved five seconds before the epoch and loaded five seconds after it has run ten more. -/
theorem test_clock_before_epoch :
    elapsed (rtcLoad (trailerOf (Rtc.fresh (-65)) (-5)) 5) 5 = 70
    ∧ elapsed (rtcLoad (trailerOf (Rtc.fresh (-65)) (-5)) (-5)) (-5) = 60
    ∧ refusal (step { sA with host.now := -5, pending := [⟨{ sA.host with now := -6 }, encode (.tick 0)⟩] })
        = some .clockBackward
    ∧ after (step { sA with host.now := -6, pending := [⟨{ sA.host with now := -5 }, encode (.tick 0)⟩] })
        (·.host.now) = some (-5) := by decide

/-- R551: a wrong size; a file for a cartridge without a battery. -/
theorem test_load_gen1 : faultOf (exec (.loadGen1 (.bytes [1])) sA) = some .loadSizeError
    ∧ refusal (exec (.loadGen1 (.bytes [1])) { sA with cfg.cart.hasBattery := false }) = some .noBattery
    ∧ after (exec (.loadGen1 .absent) sA) (·.draws) = some 17 := by decide

/-- R552: nothing to save without a battery. -/
theorem test_serialize_gen1 :
    after (exec (.serializeGen1 true) { sA with cfg.cart.hasBattery := false }) (·.result) = some (.file none)
    ∧ after (exec (.serializeGen1 true) sC)
        (fun t => match t.result with
          | .file (some m) => m.size
          | _ => 0) = some 0x2030
    ∧ faultOf (exec (.serializeGen1 false) sA) = some .storageIoError := by decide

set_option maxRecDepth 20000 in
/-- R561, R550. -/
theorem test_load_gen2 :
    after (exec (.loadGen2 (.bytes (List.replicate 0x200 0x5A))) sG2) (·.g2.nvs2.images.map (·.size))
      = some [0x200]
    ∧ faultOf (exec (.loadGen2 (.bytes [1, 2, 3])) sG2) = some .loadSizeError
    ∧ refusal (exec (.loadGen2 .absent) { sG2 with loadable := false }) = some .lateLoad := by decide

/-- R567. -/
theorem test_serialize_gen2 : after (exec (.serializeGen2 true) sG2) (·.result) = some (.file none)
    ∧ after (exec (.serializeGen2 true) (sWith (.eeprom eeprom6))) (·.result)
        = some (.file (some eeprom6.bytes)) := by decide

/-- R236, V193: a stalled CPU. -/
theorem test_stalled : faultOf (exec (.busRead8 .cpu .data 0) { sColour with g1.vdma.state := .active })
    = some .protocolViolation := by decide

/-! #### Steps -/

/-- R5, R550: a step makes the next call; after it `load` is refused. -/
theorem test_step : after (step (call (callFrame [2, 0, 0, 0, 0, 0, 0, 0, 0]) sA))
      (fun t => (t.pending, t.loadable)) = some ([], false)
    ∧ goesOn (step sA) = true := by decide

/-- R220, V32: a width of 3. -/
theorem test_bad_width : refusal (step (call (callFrame [0, 3, 0, 0, 0, 0, 0, 3]) sG2)) = some .width
    ∧ refusal (step (call (callFrame [0, 3, 0, 0, 0, 0, 0xC0, 0]) sA)) = some .widthGen1 := by decide

/-- R609. -/
theorem test_construction_refused :
    refusal (construct { Config.standard with gen := .gen2 } State.reset.host .absent)
      = some (.construction .cgbUnderGen2)
    ∧ refusal (construct { Config.standard with cart.romBankCount := 3 } State.reset.host .absent)
      = some (.construction .metadata) := by decide

/-- R640, R550, R562: construction runs `load`; a block with an override has its variant, file or none. -/
theorem test_construction_loads :
    after (construct { sG2.cfg with saveOverride := some .eeprom14 } sG2.host .absent)
        (fun t => (t.loadable, t.g2.nvs2)) = some (false, .eeprom (freshEeprom .fourteen (Image.filled 0x2000 0xFF)))
    ∧ (State.ofConfig { sG2.cfg with saveOverride := some .flash64 } sG2.host).g2.nvs2 ≠ .unresolved
    ∧ faultOf (construct sG2.cfg sG2.host .unreadable) = some .storageIoError := by decide

/-- R564: a stream of no bits writes nothing, so the block stays Unresolved. -/
theorem test_empty_stream : after (step (call (streamFrame []) sG2)) (·.g2.nvs2) = some .unresolved := by decide

/-- R183, R345: a malformed stream is dropped. R334, R335: one whose read/write bit is not the one of its
length settles an unknown address length and stages nothing (log 20). -/
theorem test_stream_frames :
    after (step (call (streamFrame [true, true, false]) (sWith (.eeprom eeprom6)))) (·.g2.nvs2)
      = some (.eeprom eeprom6)
    ∧ after (step (call (streamFrame [true, false, false, false, false, false, true, false])
        (sWith (.eeprom (freshEeprom .unknown (Image.filled 8192 0xFF))))))
        (fun t => match t.g2.nvs2 with | .eeprom e => (e.addrBits, e.bytes.size, e.staged.length) | _ => (.unknown, 0, 0))
      = some (.six, 512, 0) := by decide

/-- Log 8. -/
theorem test_clock_backward :
    refusal (step { sA with host.now := 1, pending := [⟨sA.host, encode (.tick 0)⟩] }) = some .clockBackward := by
  decide

theorem test_placed_word : after (step (State.reset.withFetchWord 24 0xFF46C1)) (·.g1.oamDma.reg) = some 0xC1
    ∧ after (step (State.reset.withFetchWord 32 0x040000B8)) (fun t => (t.cfg.gen, t.cfg.cgb))
        = some (.gen2, false) := by decide

/-! ### Witnesses: for every statement with hypotheses, states and operands that meet them -/

/-- The stall, computed. -/
theorem stalled_of {s : State} (h : cpuStalled s = true) : Stalled s := by
  unfold cpuStalled at h
  unfold Stalled
  cases g : s.cfg.gen
  · simp_all
  · simp only [g, anyActive, Bool.or_eq_true, beq_iff_eq] at h
    rcases h with ((h | h) | h) | h
    exacts [.inl ⟨rfl, .c0, h⟩, .inl ⟨rfl, .c1, h⟩, .inl ⟨rfl, .c2, h⟩, .inl ⟨rfl, .c3, h⟩]

theorem not_stalled_of {s : State} (h : cpuStalled s = false) : ¬ Stalled s := by
  unfold cpuStalled at h
  unfold Stalled
  rintro (⟨g, k, hk⟩ | ⟨g, c, hv⟩)
  · cases k <;> simp_all [anyActive, chan, Channels.get]
  · simp_all

/-- The conditions of `Open1`, computed. -/
def open1 (s : State) (a : Half) : Bool :=
  s.cfg.gen == .gen1 && constructionRefusal s.cfg == none && !cpuStalled s && heldBack s a == none

theorem open1_of {s : State} {a : Half} (h : open1 s a = true) : Open1 s a := by
  simp only [open1, Bool.and_eq_true, beq_iff_eq, Bool.not_eq_true'] at h
  exact ⟨h.1.1.1, h.1.1.2, not_stalled_of h.1.2, h.2⟩

/-- The conditions of `Open2`, computed. -/
def open2 (s : State) : Bool :=
  s.cfg.gen == .gen2 && constructionRefusal s.cfg == none && !cpuStalled s

theorem open1By_cpu {s : State} {a : Half} (h : open1 s a = true) : Open1By s .cpu a :=
  ⟨(open1_of h).1, (open1_of h).2.1, .inl ⟨rfl, open1_of h⟩⟩

theorem open2_of {s : State} (h : open2 s = true) : Open2 s := by
  simp only [open2, Bool.and_eq_true, beq_iff_eq, Bool.not_eq_true'] at h
  exact ⟨h.1.1, h.1.2, not_stalled_of h.2⟩

theorem open2By_cpu {s : State} (h : open2 s = true) : Open2By s .cpu :=
  ⟨(open2_of h).1, (open2_of h).2.1, .inl ⟨rfl, (open2_of h).2.2⟩⟩

theorem open2By_chan {s : State} (k : Chan) (h : open2 s = true) : Open2By s (.chan k) :=
  ⟨(open2_of h).1, (open2_of h).2.1, .inr ⟨k, rfl⟩⟩

/-- The sizes, computed. -/
def sized (s : State) : Bool :=
  s.g1.vram.size == (if s.cfg.cgb then 0x4000 else 0x2000)
    && s.g1.wram.size == (if s.cfg.cgb then 0x8000 else 0x2000)
    && s.g1.oam.size == 160 && s.g1.hram.size == 127
    && (match s.g1.nvs1 with
      | none => s.cfg.cart.family != .b && s.cfg.cart.ramSize == 0
      | some r => if s.cfg.cart.family = .b then r.bytes.size == 512
                  else s.cfg.cart.ramSize != 0 && r.bytes.size == s.cfg.cart.ramSize)
    && s.g2.ewram.size == 0x40000 && s.g2.iwram.size == 0x8000 && s.g2.pal.size == 0x400
    && s.g2.vram2.size == 0x18000 && s.g2.oam2.size == 0x400 && (s.cfg.cgb || s.g1.vbk == 0)

theorem sizes_of {s : State} (h : sized s = true) : SizesOk s := by
  unfold sized at h
  unfold SizesOk ramSized
  cases n : s.g1.nvs1 <;> by_cases b : s.cfg.cart.family = .b <;> cases c : s.cfg.cgb <;> simp_all

/-- The cells of a channel, computed. -/
def celled (k : Chan) (c : DmaChannel) : Bool :=
  let ok := fun (r : Reg16) (rm wm : Half) => r.readMask == rm && r.writeMask == wm && r.value &&& ~~~wm == 0
  ok c.sadL 0 0xFFFF && ok c.sadH 0 (sadHMask k) && ok c.dadL 0 0xFFFF && ok c.dadH 0 (dadHMask k)
    && ok c.cntL 0 (cntLMask k) && ok c.cntH (cntHMask k) (cntHMask k)
    && (c.state == .inactive || decide (1 ≤ c.remaining))

theorem dma2_of {s : State} (h : [Chan.c0, .c1, .c2, .c3].all (fun k => celled k (chan s k)) = true) :
    Dma2Ok s := by
  intro k
  have hk : celled k (chan s k) = true := by
    simp only [List.all_cons, List.all_nil, Bool.and_true, Bool.and_eq_true] at h
    cases k <;> simp_all
  simp only [celled, Bool.and_eq_true, beq_iff_eq, Bool.or_eq_true, decide_eq_true_eq] at hk
  obtain ⟨⟨⟨⟨⟨⟨⟨⟨a, b⟩, c⟩, ⟨d, e⟩, f⟩, ⟨g, i⟩, j⟩, ⟨l, m⟩, n⟩, ⟨o, p⟩, q⟩, ⟨u, v⟩, w⟩, x⟩ := hk
  exact ⟨⟨⟨a, b, c⟩, ⟨d, e, f⟩, ⟨g, i, j⟩, ⟨l, m, n⟩, ⟨o, p, q⟩, ⟨u, v, w⟩⟩,
    fun hs => x.resolve_left hs⟩

/-- A call of the caller, as its frame. -/
def calling (i : Instr) (s : State) : State := call (encode i) s

/-- The hypotheses of StepRunsDecodedCall, of both clauses. -/
theorem witness_StepRunsDecodedCall :
    ∃ p, (calling (.tick 1000) sA).pending = [p] ∧ constructionRefusal (calling (.tick 1000) sA).cfg = none
      ∧ (calling (.tick 1000) sA).host.now ≤ p.host.now ∧ decode p.frame = .ok (.tick 1000)
      ∧ sA.pending = [] := ⟨_, rfl, by decide, by decide, by decide, rfl⟩

theorem witness_PlacedWordRunsNext :
    decodeTableWord 24 0xFF46C1 = some (.gbDmaWrite 0xC1)
    ∧ constructionRefusal (fetchConfig 24 0xFF46C1 State.reset.cfg) = none
    ∧ decodeTableWord 32 0x040000B8 = some (.gbaDma0CntL .b1 0)
    ∧ constructionRefusal (fetchConfig 32 0x040000B8 State.reset.cfg) = none := by decide

theorem witness_DecodeAndEncodeAgree :
    (Instr.tick (2 ^ 63 - 1)).wellFormed = true ∧ (Instr.gbIoForwardRead 0x7F).wellFormed = true
    ∧ decode ⟨.gbRead, [0x7F, 0xFF, 0]⟩ = .ok (.gbIoForwardRead 0x7F) := by decide

theorem witness_StepKeepsMemoryCanonical :
    MemoryOk (calling (.busWrite8 .cpu 0xC000 1) sA) ∧ ∃ t, step (calling (.busWrite8 .cpu 0xC000 1) sA) = .next t :=
  ⟨by show Memory.wf _ = true; decide, _, rfl⟩

theorem bank_ok_of {s : State} (b : s.g1.bank = BankState.reset) (r : s.g1.rumble = false) : BankOk s := by
  simp [BankOk, b, r, BankState.reset]

theorem witness_StepKeepsBankRanges :
    BankOk (calling (.aRomb0 0 0) sA) ∧ ∃ t, step (calling (.aRomb0 0 0) sA) = .next t :=
  ⟨bank_ok_of rfl rfl, _, rfl⟩

theorem witness_StepKeepsClockSane :
    RtcOk (calling (.rtcWriteS 0 59) (sClock 90061 8))
      ∧ ∃ t, step (calling (.rtcWriteS 0 59) (sClock 90061 8)) = .next t := by
  refine ⟨?_, _, rfl⟩
  refine ⟨by decide, by decide, by decide, by decide, by decide, by decide⟩

theorem witness_StepKeepsGen1DmaCounts :
    Dma1Ok (calling (.gbDmaWrite 0xC1) sColour) ∧ ∃ t, step (calling (.gbDmaWrite 0xC1) sColour) = .next t := by
  refine ⟨⟨rfl, by decide, by decide⟩, _, rfl⟩

theorem witness_StepKeepsGen2DmaCells :
    Dma2Ok (calling (.gbaDma3Enable 0) sG2) ∧ ∃ t, step (calling (.gbaDma3Enable 0) sG2) = .next t :=
  ⟨dma2_of (by decide), _, rfl⟩

theorem flash_ok {c : Config} : flashOk c (freshFlash c (Image.filled 0x20000 0xFF)) := by
  refine ⟨.inr rfl, by simp [freshFlash, Image.filled], fun _ => rfl, by simp [freshFlash], by simp [freshFlash]⟩

/-- A flash of two banks in a command state. -/
theorem flash_state_ok {c : Config} (st : FlashState) (l : FlashCommand)
    (h : st = .command → l = .program ∨ l = .bankSwitch) :
    flashOk c { freshFlash c (Image.filled 0x20000 0xFF) with state := st, last := l } :=
  ⟨.inr rfl, by simp [freshFlash, Image.filled], fun _ => rfl, h, fun _ => rfl⟩

theorem witness_StepKeepsStorageVariant :
    let s := calling .flashUnlock1 { sWith (.flash (flash .notStarted .none)) with cfg.saveOverride := some .flash128 }
    StorageOk s ∧ OverrideOk s ∧ s.cfg.saveOverride ≠ none ∧ ∃ t, step s = .next t :=
  ⟨flash_state_ok _ _ (by decide), fun _ => Nvs2.noConfusion, by decide, _, rfl⟩

/-- A CPU call while the CPU is stalled is the fault left. -/
theorem witness_NoInvariantViolation :
    let s := calling (.busRead8 .cpu .data 0) { sColour with g1.vdma.state := .active, g1.vdma.blocks := 1 }
    Dma2Ok s ∧ StorageOk s ∧ step s = .fault .protocolViolation :=
  ⟨dma2_of (by decide), trivial, rfl⟩

theorem witness_ConstructionLeavesResetState :
    (∃ s, construct Config.standard State.reset.host .absent = .next s) ∧ Config.standard.gen = .gen1
    ∧ (∃ s, construct sG2.cfg State.reset.host .absent = .next s) ∧ sG2.cfg.gen = .gen2
    ∧ ∃ s, construct { sG2.cfg with saveOverride := some .flash64 } State.reset.host .absent = .next s :=
  ⟨⟨_, rfl⟩, rfl, ⟨_, rfl⟩, rfl, _, rfl⟩

theorem witness_ResetIsConstructed :
    constructionRefusal Config.standard = none ∧ constructionRefusal sG2.cfg = none := by decide

/-- Parameters on both sides of the rules of ConstructionIsLegal: the greatest bank count of Family D,
and one that is no power of two. -/
theorem witness_ConstructionIsLegal :
    goesOn (construct sD.cfg sD.host .absent) = true ∧ sD.cfg.gen = .gen1
    ∧ refusal (construct { sD.cfg with cart.romBankCount := 1024 } sD.host .absent)
        = some (.construction .metadata)
    ∧ goesOn (construct sG2.cfg sG2.host .absent) = true
    ∧ refusal (construct { sG2.cfg with bios.size := 0x3FFF } sG2.host .absent)
        = some (.construction .biosLength) := by
  decide

theorem witness_ParametersAndSizesAreFixed :
    SizesOk (calling (.busWrite8 .cpu 0xC000 1) sA)
      ∧ ∃ t, step (calling (.busWrite8 .cpu 0xC000 1) sA) = .next t := ⟨sizes_of (by decide), _, rfl⟩

theorem witness_StallFaultsThenWidthRefuses :
    Stalled { sColour with g1.vdma.state := .active } ∧ ¬ Stalled sA ∧ sA.cfg.gen = .gen1
    ∧ cpuAccess (.gbDmaWrite 0) = true ∧ Stalled (setChan .c2 { sG2.g2.dma.c2 with state := .active } sG2) :=
  ⟨stalled_of rfl, not_stalled_of rfl, rfl, rfl, stalled_of rfl⟩

theorem witness_TickLeavesClockAndBank : ∃ t, exec (.tick 4) sA = .next t := ⟨_, rfl⟩

theorem witness_TickCounts :
    ((-1 : Int) < 0) ∧ (0 : Int) ≤ 4 ∧ Idle sA ∧ Idle sG2 :=
  ⟨by decide, by decide, ⟨rfl, by decide⟩, ⟨fun k => by cases k <;> exact .inl rfl, rfl⟩⟩

theorem witness_LoadOnlyBeforeOtherCalls :
    ({ sA with loadable := false } : State).loadable = false
    ∧ ∃ p t, (calling (.tick 0) sA).pending = [p] ∧ step (calling (.tick 0) sA) = .next t :=
  ⟨rfl, _, _, rfl, rfl⟩

/-- The last unit of a channel, its interrupt enabled. -/
def lastUnit : State :=
  setChan .c3 { sG2.g2.dma.c3 with
    cntH.value := 0xC000, state := .active, src := 0x2000000, dst := 0x3000000, remaining := 1,
    counter := 1 } sG2

theorem witness_InterruptsOnlyFromGen2Tick :
    after (exec (.tick 1) lastUnit) requests = some [.interrupt .c3]
    ∧ (∃ t, exec (.tick 1) sA = .next t) ∧ sA.cfg.gen = .gen1
    ∧ (∃ t, exec .triggerVblank sG2 = .next t) ∧ ∀ c, Instr.triggerVblank ≠ .tick c :=
  ⟨by decide, ⟨_, rfl⟩, rfl, ⟨_, rfl⟩, fun _ => by simp⟩

theorem witness_ResolvedVariantStays :
    let s := calling .flashUnlock1 { sWith (.flash (flash .notStarted .none)) with loadable := false }
    s.loadable = false ∧ s.g2.nvs2 ≠ .unresolved ∧ ∃ t, step s = .next t :=
  ⟨rfl, by simp [calling, call, sWith, setNvs2], _, rfl⟩

/-- A fetch inside the boot ROM, a data read outside it, a read of each generation, and a read of the
Eeprom's window with two bits staged. -/
theorem witness_ReadsLeaveStateUnchanged :
    (∃ t, exec (readRow .b4 .cpu .fetch 0x3FFC) { sG2 with host.cpu.pcInBios := true } = .next t)
    ∧ (∃ t, exec (readRow .b2 .cpu .data 0x4000) sG2 = .next t)
    ∧ (∃ t, exec (readRow .b1 .cpu .data 0xC000) sA = .next t) ∧ sA.cfg.gen = .gen1
    ∧ inEepromWindow sG2.cfg 0x0CFFFFFF = false
    ∧ (∃ t, exec (readRow .b4 .cpu .data 0x0D000000)
        (sWith (.eeprom { eeprom6 with staged := [true, false] })) = .next t)
    ∧ (sWith (.eeprom { eeprom6 with staged := [true, false] })).g2.nvs2
        = .eeprom { eeprom6 with staged := [true, false] } :=
  ⟨⟨_, rfl⟩, ⟨_, rfl⟩, ⟨_, rfl⟩, rfl, by decide, ⟨_, rfl⟩, rfl⟩

/-- The object-memory DMA at work on a bus. -/
def copying (b : Blocked) : State :=
  { sA with g1.oamDma.state := .active, g1.blocked := b }

/-- Both ends of object memory while the DMA runs; an address of the blocked bus. -/
theorem witness_HeldBackCpuAccess_dma :
    (copying .external).cfg.gen = .gen1 ∧ ¬ Stalled (copying .external)
    ∧ OamBusy (copying .external) 0xFE00 ∧ OamBusy (copying .external) 0xFEFF
    ∧ ¬ OamBusy (copying .external) 0xFDFF ∧ (copying .external).g1.blocked ≠ .none
    ∧ (busOf (copying .external).cfg 0xFDFF).toBlocked = (copying .external).g1.blocked
    ∧ (busOf (copying .video).cfg 0x9FFF).toBlocked = (copying .video).g1.blocked :=
  ⟨rfl, not_stalled_of rfl, ⟨rfl, by decide, by decide⟩, ⟨rfl, by decide, by decide⟩,
   fun h => absurd h.2.1 (by decide), by decide, by decide, by decide⟩

/-- Each gate at the ends of its range, with nothing blocked. -/
theorem witness_HeldBackCpuAccess_gate :
    let s := { sColour with host.ppu := ⟨true, .mode3⟩ }
    let t := { sColour with host.ppu := ⟨true, .mode2⟩ }
    s.cfg.gen = .gen1 ∧ ¬ Stalled s ∧ s.g1.blocked = .none
    ∧ (∀ a ∈ [(0x8000 : Half), 0x9FFF, 0xFF69, 0xFF6B, 0xFE00, 0xFEFF], ¬ OamBusy s a ∧ Gated s a)
    ∧ ∀ a ∈ [(0xFE00 : Half), 0xFEFF], ¬ OamBusy t a ∧ Gated t a := by
  refine ⟨rfl, not_stalled_of rfl, rfl, ?_, ?_⟩
  · intro a ha
    refine ⟨fun h => absurd h.1 (by decide), rfl, ?_⟩
    simp only [List.mem_cons, List.not_mem_nil, or_false] at ha
    obtain rfl | rfl | rfl | rfl | rfl | rfl := ha <;> decide
  · intro a ha
    refine ⟨fun h => absurd h.1 (by decide), rfl, ?_⟩
    simp only [List.mem_cons, List.not_mem_nil, or_false] at ha
    obtain rfl | rfl := ha <;> decide

/-! #### Generation 1 -/

theorem witness_ObjectDmaRegister : Open1 sA 0xFF46 ∧ Open1 sColour 0xFF46 :=
  ⟨open1_of rfl, open1_of rfl⟩

theorem witness_BankAndBootRegisters :
    Open1 sColour 0xFF4F ∧ Open1 sColour 0xFF70 ∧ Open1 sColour 0xFF50
    ∧ Open1 sA 0xFF4F ∧ Open1 sA 0xFF70 ∧ Open1 sA 0xFF50 :=
  ⟨open1_of rfl, open1_of rfl, open1_of rfl, open1_of rfl, open1_of rfl, open1_of rfl⟩

theorem witness_BootRomStaysDisabled :
    (calling (.gbBootWrite 1) sA).g1.bootEnabled = false ∧ ∃ t, step (calling (.gbBootWrite 1) sA) = .next t :=
  ⟨rfl, _, rfl⟩

theorem witness_VideoDmaAddressRegisters :
    Open1 sColour 0xFF51 ∧ Open1 sColour 0xFF52 ∧ Open1 sColour 0xFF53 ∧ Open1 sColour 0xFF54
    ∧ Open1 sA 0xFF51 ∧ Open1 sA 0xFF52 ∧ Open1 sA 0xFF53 ∧ Open1 sA 0xFF54 :=
  ⟨open1_of rfl, open1_of rfl, open1_of rfl, open1_of rfl, open1_of rfl, open1_of rfl, open1_of rfl,
   open1_of rfl⟩

/-- A horizontal-blank transfer that waits. -/
def armed : State :=
  { sColour with g1.vdma.state := .paused, g1.vdma.mode := .hblank, g1.vdma.blocks := 3 }

theorem witness_VideoDmaLengthRegister :
    Open1 sA 0xFF55 ∧ sA.cfg.cgb = false
    ∧ Open1 sColour 0xFF55 ∧ sColour.cfg.cgb = true ∧ sColour.g1.vdma.state = .inactive
    ∧ Open1 armed 0xFF55 ∧ armed.cfg.cgb = true ∧ armed.g1.vdma.state = .paused
    ∧ armed.g1.vdma.mode = .hblank :=
  ⟨open1_of rfl, rfl, open1_of rfl, rfl, rfl, open1_of rfl, rfl, rfl, rfl⟩

/-- The ends of both I/O blocks and the addresses beside the DMA registers, by the CPU and by a channel or
an engine. -/
theorem witness_UnownedIoIsForwarded :
    (∀ a ∈ [(0 : BitVec 7), 0x7F], forwardable a = true ∧ Open1By sA .cpu (0b111111110#9 ++ a)
      ∧ Open1By sA .oam (0b111111110#9 ++ a) ∧ Open1By sColour .vdma (0b111111110#9 ++ a))
    ∧ Open1By sA .cpu 0xFFFF ∧ Open1By sA .oam 0xFFFF ∧ Open2By sG2 .cpu ∧ Open2By sG2 (.chan .c3)
    ∧ ∀ a ∈ [(0x04000000 : Word), 0x040000AF, 0x040000E0, 0x040003FF],
        0x04000000 ≤ a.toNat ∧ a.toNat < 0x04000400 ∧ (a.toNat < 0x040000B0 ∨ 0x040000E0 ≤ a.toNat) := by
  refine ⟨fun a h => ?_, open1By_cpu rfl, ⟨rfl, by decide, .inr (.inl rfl)⟩, open2By_cpu rfl, open2By_chan _ rfl,
    fun a h => ?_⟩
  · simp only [List.mem_cons, List.not_mem_nil, or_false] at h
    obtain rfl | rfl := h <;>
      exact ⟨rfl, open1By_cpu rfl, ⟨rfl, by decide, .inr (.inl rfl)⟩, rfl, by decide, .inr (.inr ⟨rfl, rfl⟩)⟩
  · simp only [List.mem_cons, List.not_mem_nil, or_false] at h
    obtain rfl | rfl | rfl | rfl := h <;> decide

/-- The first and the last address of each control register of Family A. -/
theorem witness_FamilyAControl :
    sA.cfg.cart.family = .a ∧ ∀ a ∈ [(0 : BitVec 13), 0x1FFF],
      Open1 sA (0#3 ++ a) ∧ Open1 sA (1#3 ++ a) ∧ Open1 sA (2#3 ++ a) ∧ Open1 sA (3#3 ++ a) := by
  refine ⟨rfl, fun a ha => ?_⟩
  simp only [List.mem_cons, List.not_mem_nil, or_false] at ha
  obtain rfl | rfl := ha <;> exact ⟨open1_of rfl, open1_of rfl, open1_of rfl, open1_of rfl⟩

theorem witness_FamilyBAndRomOnlyControl :
    sB.cfg.cart.family = .b ∧ Open1 sB (0#2 ++ 0#5 ++ 0#1 ++ 0#8) ∧ Open1 sB (0#2 ++ 0x1F#5 ++ 0#1 ++ 0xFF#8)
    ∧ Open1 sB (0#2 ++ 0#5 ++ 1#1 ++ 0#8) ∧ Open1 sB (0#2 ++ 0x1F#5 ++ 1#1 ++ 0xFF#8)
    ∧ Open1 sB (1#2 ++ 0#14) ∧ Open1 sB (1#2 ++ 0x3FFF#14)
    ∧ sNone.cfg.cart.family = .romOnly ∧ Open1 sNone (0#1 ++ 0#15) ∧ Open1 sNone (0#1 ++ 0x7FFF#15) :=
  ⟨rfl, open1_of rfl, open1_of rfl, open1_of rfl, open1_of rfl, open1_of rfl, open1_of rfl, rfl,
   open1_of rfl, open1_of rfl⟩

/-- Each clause of the latch: no clock, a byte that latches nothing, and 0x01 right after 0x00. -/
theorem witness_FamilyCControl :
    let noClock := gen1 (cartOf .c 128 0x2000 false false) false
    let ready := { sC with g1.bank.latchLast := 0x00 }
    let bare := gen1 (cartOf .c 128 0 false false) false
    sC.cfg.cart.family = .c ∧ Open1 sC (0#3 ++ 0x1FFF#13) ∧ Open1 sC (1#3 ++ 0#13) ∧ Open1 sC (2#3 ++ 0#13)
    ∧ Open1 sC (3#3 ++ 0x1FFF#13) ∧ sC.cfg.cart.hasRtc = true ∧ ¬ (sC.g1.bank.latchLast = 0x00 ∧ (1 : Byte) = 0x01)
    ∧ noClock.cfg.cart.family = .c ∧ Open1 noClock (3#3 ++ 0#13) ∧ noClock.cfg.cart.hasRtc = false
    ∧ ready.cfg.cart.family = .c ∧ Open1 ready (3#3 ++ 0#13) ∧ ready.cfg.cart.hasRtc = true
    ∧ ready.g1.bank.latchLast = 0x00 ∧ bare.cfg.cart.family = .c ∧ Open1 bare (2#3 ++ 0#13) :=
  ⟨rfl, open1_of rfl, open1_of rfl, open1_of rfl, open1_of rfl, rfl, by decide, rfl, open1_of rfl, rfl, rfl,
   open1_of rfl, rfl, rfl, rfl, open1_of rfl⟩

theorem witness_FamilyDControl :
    sD.cfg.cart.family = .d ∧ Open1 sD (0#3 ++ 0x1FFF#13) ∧ Open1 sD (2#4 ++ 0xFFF#12) ∧ Open1 sD (3#4 ++ 0#12)
    ∧ Open1 sD (2#3 ++ 0#13) ∧ Open1 sD (3#3 ++ 0x1FFF#13) :=
  ⟨rfl, open1_of rfl, open1_of rfl, open1_of rfl, open1_of rfl, open1_of rfl⟩

/-- A boot ROM of 0x900 bytes. -/
def sBoot : State :=
  { sColour with cfg.boot := some { size := 0x900, fill := .known 0xB0, cells := [] }, g1.bootEnabled := true }

/-- The boot ROM covers 0x00FF and 0x08FF; it covers neither 0x0100 nor 0x0900. -/
theorem witness_RomWindowRead :
    (∀ a ∈ [(0 : BitVec 15), 0x3FFF, 0x4000, 0x7FFF], Open1 sA (0#1 ++ a) ∧ ¬ Overlaid sA a.toNat) ∧ BankOk sA
    ∧ (∀ a ∈ [(0xFF : BitVec 15), 0x200, 0x8FF], Open1 sBoot (0#1 ++ a) ∧ Overlaid sBoot a.toNat)
    ∧ (∀ a ∈ [(0x100 : BitVec 15), 0x1FF, 0x900], Open1 sBoot (0#1 ++ a) ∧ ¬ Overlaid sBoot a.toNat)
    ∧ BankOk sBoot := by
  refine ⟨fun a ha => ?_, bank_ok_of rfl rfl, fun a ha => ?_, fun a ha => ?_, bank_ok_of rfl rfl⟩ <;>
    simp only [List.mem_cons, List.not_mem_nil, or_false] at ha
  · refine ⟨?_, fun h => absurd h.1 (by decide)⟩
    obtain rfl | rfl | rfl | rfl := ha <;> exact open1_of rfl
  · obtain rfl | rfl | rfl := ha <;> exact ⟨open1_of rfl, rfl, _, rfl, by decide, by decide⟩
  · obtain rfl | rfl | rfl := ha <;> refine ⟨open1_of rfl, ?_⟩ <;> rintro ⟨-, m, hm, h⟩ <;> cases hm <;>
      revert h <;> decide

theorem no_clock {s : State} {sel : Byte} (h : s.cfg.cart.hasRtc = false) : ¬ RtcSelected s sel := by
  simp [RtcSelected, h]

/-- The window showing RAM on every family that has any, and showing nothing. -/
theorem witness_RamWindowRead :
    (∀ s ∈ [ramOpen sA 3, ramOpen sB 0, ramOpen sD 0xF, sNone, sA],
      Open1 s (5#3 ++ 0#13) ∧ Open1 s (5#3 ++ 0x1FFF#13) ∧ SizesOk s
        ∧ ∀ sel, 0x08 ≤ sel → sel ≤ 0x0C → ¬ RtcSelected s sel)
    ∧ Open1 (ramOpen sC 7) (5#3 ++ 0#13) ∧ SizesOk (ramOpen sC 7)
    ∧ (∀ sel, 0x08 ≤ sel → sel ≤ 0x0C → ¬ RtcSelected (ramOpen sC 7) sel)
    ∧ ramOffsetOf (ramOpen sC 7) 0xA000 = some 0 ∧ ramOffsetOf (ramOpen sC 0x0D) 0xA000 = none
    ∧ ramOffsetOf (ramOpen sB 0) 0xBFFF = some 511 ∧ ramOffsetOf sA 0xA000 = none := by
  refine ⟨fun s hs => ?_, open1_of rfl, sizes_of (by decide), ?_, by decide, by decide, by decide, by decide⟩
  · simp only [List.mem_cons, List.not_mem_nil, or_false] at hs
    obtain rfl | rfl | rfl | rfl | rfl := hs <;>
      exact ⟨open1_of rfl, open1_of rfl, sizes_of (by decide), fun _ _ _ => no_clock rfl⟩
  · rintro sel lo - ⟨-, -, -, h⟩
    rw [← h] at lo
    exact absurd lo (by decide)

theorem witness_RamWindowWrite :
    (∀ s ∈ [ramOpen sA 3, ramOpen sB 0, ramOpen sD 0xF, sNone, sA],
      Open1 s (5#3 ++ 0#13) ∧ SizesOk s ∧ MemoryOk s
        ∧ ∀ sel, 0x08 ≤ sel → sel ≤ 0x0C → ¬ RtcSelected s sel)
    ∧ ramOffsetOf sA 0xA000 = none ∧ ramOffsetOf sNone 0xBFFF = some 0x1FFF
    ∧ ramOffsetOf { ramOpen sA 3 with g1.bank.mode := 1 } 0xBFFF = some 0x7FFF := by
  refine ⟨fun s hs => ?_, by decide, by decide, by decide⟩
  simp only [List.mem_cons, List.not_mem_nil, or_false] at hs
  obtain rfl | rfl | rfl | rfl | rfl := hs <;>
    exact ⟨open1_of rfl, sizes_of (by decide), by show Memory.wf _ = true; decide, fun _ _ _ => no_clock rfl⟩

theorem clock_open (sel : Byte) : RtcSelected (sClock 90061 sel) sel := ⟨rfl, rfl, rfl, rfl⟩

theorem witness_ClockRegisterReads :
    ∀ sel ∈ [(0x08 : Byte), 0x09, 0x0A, 0x0B, 0x0C],
      Open1 (sClock 90061 sel) (5#3 ++ 0#13) ∧ RtcSelected (sClock 90061 sel) sel := by
  intro sel h
  refine ⟨?_, clock_open sel⟩
  simp only [List.mem_cons, List.not_mem_nil, or_false] at h
  obtain rfl | rfl | rfl | rfl | rfl := h <;> exact open1_of rfl

/-- Each unit, with the greatest legal byte, the least illegal one, and ones with a bit above the field. -/
theorem witness_ClockUnitWrites :
    (∀ sel ∈ [(0x08 : Byte), 0x09, 0x0A, 0x0B],
      Open1 (sClock 90061 sel) (5#3 ++ 0x1FFF#13) ∧ RtcSelected (sClock 90061 sel) sel)
    ∧ (59 : Byte) < 60 ∧ (∀ v ∈ [(60 : Byte), 0x45], 60 ≤ v) ∧ (23 : Byte) < 24
    ∧ ∀ v ∈ [(24 : Byte), 0x20], 24 ≤ v := by
  refine ⟨fun sel h => ⟨?_, clock_open sel⟩, by decide⟩
  simp only [List.mem_cons, List.not_mem_nil, or_false] at h
  obtain rfl | rfl | rfl | rfl := h <;> exact open1_of rfl

theorem witness_ClockFlagsWrite :
    Open1 (sClock 90061 0x0C) (5#3 ++ 0#13) ∧ RtcSelected (sClock 90061 0x0C) 0x0C
    ∧ (sClock 90061 0x0C).host.now ≤ 90061 := ⟨open1_of rfl, clock_open _, by decide⟩

/-- Both ends of each memory, of its banks and of the echo, and of the prohibited region; by every master. -/
theorem witness_WorkRamReadAfterWrite :
    let s := { sColour with g1.svbk := 7, g1.vbk := 1 }
    (∀ p ∈ [((0x8000 : Half), Ram1.vram, 0x2000), (0x9FFF, .vram, 0x3FFF), (0xC000, .wram, 0), (0xCFFF, .wram, 0xFFF),
            (0xD000, .wram, 0x7000), (0xDFFF, .wram, 0x7FFF), (0xE000, .wram, 0), (0xFDFF, .wram, 0x7DFF),
            (0xFE00, .oam, 0), (0xFE9F, .oam, 159), (0xFF80, .hram, 0), (0xFFFE, .hram, 126)],
      Open1By s .cpu p.1 ∧ ram1At s p.1.toNat = some p.2)
    ∧ Open1By s .oam 0xC000 ∧ Open1By s .vdma 0xC000
    ∧ Open1By s .cpu 0xFEA0 ∧ Open1By s .cpu 0xFEFF ∧ ram1At s 0xFEA0 = none ∧ ram1At s 0xFEFF = none
    ∧ MemoryOk s ∧ SizesOk s ∧ Open1By sA .cpu 0x8000 ∧ MemoryOk sA ∧ SizesOk sA := by
  refine ⟨fun p hp => ?_, ⟨rfl, by decide, .inr (.inl rfl)⟩, ⟨rfl, by decide, .inr (.inr ⟨rfl, rfl⟩)⟩,
    open1By_cpu rfl, open1By_cpu rfl, rfl, rfl, by show Memory.wf _ = true; decide, sizes_of (by decide),
    open1By_cpu rfl, by show Memory.wf _ = true; decide, sizes_of (by decide)⟩
  simp only [List.mem_cons, List.not_mem_nil, or_false] at hp
  obtain rfl | rfl | rfl | rfl | rfl | rfl | rfl | rfl | rfl | rfl | rfl | rfl := hp <;> exact ⟨open1By_cpu rfl, rfl⟩

/-- The first and the last page. -/
theorem witness_ObjectDmaCopiesPage :
    Open1 sA 0xFF46 ∧ (0xC0 : Byte) ≤ 0xC0 ∧ (0xCF : Byte) ≤ 0xCF ∧ MemoryOk sA ∧ SizesOk sA
    ∧ (sColour.cfg.cgb = true → sColour.g1.vdma.state ≠ .active)
    ∧ (∃ t, exec (.gbDmaWrite 0xC0) sA = .next t) ∧ ∃ t, exec (.gbDmaWrite 0xCF) sA = .next t :=
  ⟨open1_of rfl, by decide, by decide, by show Memory.wf _ = true; decide, sizes_of (by decide),
   fun _ => by decide, ⟨_, rfl⟩, _, rfl⟩

/-- A source block in the ROM, in a forbidden region, in the RAM window, at both ends of work RAM and at the
end of the address space, in either mode. -/
theorem witness_VideoDmaMovesBlock :
    (∀ p ∈ [((0 : Half), VdmaMode.general), (0x7FF0, .hblank), (0x8000, .general), (0xA000, .hblank),
            (0xC000, .general), (0xDFF0, .hblank), (0xE000, .general), (0xFFF8, .hblank)],
      let s := { sColour with g1.vdma := ⟨.active, p.2, p.1, 0x1FF0, 1, 1, 0xFF⟩ }
      s.cfg.gen = .gen1 ∧ constructionRefusal s.cfg = none ∧ s.cfg.cgb = true ∧ s.g1.vdma.state = .active
      ∧ s.g1.vdma.counter = 1 ∧ s.g1.oamDma.state = .inactive ∧ MemoryOk s ∧ SizesOk s ∧ BankOk s
      ∧ 1 ≤ s.g1.vdma.blocks)
    ∧ Forbidden 0x8000 ∧ Forbidden 0x9FFF ∧ Forbidden 0xE000 ∧ Forbidden 0xFFFF ∧ ¬ Forbidden 0x7FFF
    ∧ ¬ Forbidden 0xA000 ∧ ¬ Forbidden 0xDFFF ∧ (0xFFF8 + 8) % 0x10000 = 0 := by
  refine ⟨fun p hp => ?_, by unfold Forbidden; decide⟩
  simp only [List.mem_cons, List.not_mem_nil, or_false] at hp
  obtain rfl | rfl | rfl | rfl | rfl | rfl | rfl | rfl := hp <;>
    exact ⟨rfl, by decide, rfl, rfl, rfl, rfl, by show Memory.wf _ = true; decide, sizes_of (by decide),
      bank_ok_of rfl rfl, by decide⟩

/-! #### Generation 2 -/

theorem sG2_ok : open2 sG2 = true ∧ MemoryOk sG2 ∧ SizesOk sG2 ∧ Dma2Ok sG2 :=
  ⟨rfl, by show Memory.wf _ = true; decide, sizes_of (by decide), dma2_of (by decide)⟩

/-- The first and the last address of each memory's page, by the CPU and by a channel. -/
theorem witness_Gen2RamReadAndWrite :
    Open2By sG2 .cpu ∧ Open2By sG2 (.chan .c3) ∧ MemoryOk sG2 ∧ SizesOk sG2
    ∧ ∀ p ∈ [((0x02000000 : Word), Ram2.ewram), (0x02FFFFFF, .ewram), (0x03000000, .iwram), (0x03FFFFFF, .iwram),
             (0x05000000, .pal), (0x05FFFFFF, .pal), (0x06000000, .vram), (0x06017FFF, .vram),
             (0x06018000, .vram), (0x06FFFFFF, .vram), (0x07000000, .oam), (0x07FFFFFF, .oam)],
        p.1.toNat / 0x1000000 = p.2.page :=
  ⟨open2By_cpu rfl, open2By_chan _ rfl, sG2_ok.2.1, sG2_ok.2.2.1, by decide⟩

/-- The byte below the background limit and the byte at it, and the other pages. -/
theorem witness_NarrowVideoWrites :
    Open2By sG2 .cpu ∧ MemoryOk sG2 ∧ SizesOk sG2
    ∧ Ram2.vram.offset (0x0600FFFF : Word).toNat < sG2.host.bgLimit.value
    ∧ (0x0600FFFF : Word).toNat / 0x1000000 = Ram2.vram.page
    ∧ sG2.host.bgLimit.value ≤ Ram2.vram.offset (0x06010000 : Word).toNat
    ∧ (0x05000001 : Word).toNat / 0x1000000 = Ram2.pal.page ∧ (0x07000000 : Word).toNat / 0x1000000 = Ram2.oam.page :=
  ⟨open2By_cpu rfl, sG2_ok.2.1, sG2_ok.2.2.1, by decide, by decide, by decide, by decide, by decide⟩

theorem witness_OpenBusAndBootRom :
    Open2By sG2 .cpu ∧ Open2By sG2 (.chan .c0) ∧ (Master.chan .c0 ≠ .cpu) ∧ sG2.cfg.openBus = .standard
    ∧ Unmapped2 0x4000 ∧ Unmapped2 0x01FFFFFF ∧ Unmapped2 0x04000400 ∧ Unmapped2 0x04FFFFFF
    ∧ Unmapped2 0x10000000 ∧ Unmapped2 0xFFFFFFFF ∧ ¬ Unmapped2 0x3FFF
    ∧ (0x3FFF : Word).toNat < 0x4000 ∧ sG2.host.cpu.pcInBios = false
    ∧ Open2By { sG2 with host.cpu.pcInBios := true } .cpu := by
  refine ⟨open2By_cpu rfl, open2By_chan _ rfl, by decide, rfl, ?_, ?_, ?_, ?_, ?_, ?_, ?_, by decide, rfl,
    open2By_cpu rfl⟩ <;> simp [Unmapped2]

/-- A ROM of more than 16 MiB. -/
def sBigRom : State :=
  { sWith (.eeprom eeprom6) with cfg.rom := { size := 0x01000001, fill := .known 0, cells := [] } }

/-- An Eeprom outside its window, in both sizes of ROM; no Eeprom anywhere; the CPU and a channel. -/
theorem witness_CartridgeRomAccess :
    Open2By sG2 .cpu ∧ Open2By sG2 (.chan .c3) ∧ ¬ ReadsEeprom sG2 0x0D000000 ∧ ¬ InWindow sG2 0x0CFFFFFF
    ∧ ¬ ReadsEeprom (sWith (.eeprom eeprom6)) 0x0CFFFFFF ∧ Open2By (sWith (.eeprom eeprom6)) .cpu
    ∧ ¬ ReadsEeprom sBigRom 0x0DFFFEFF ∧ Open2By sBigRom .cpu
    ∧ (0x0D000000 : Word) = 0x0D#8 ++ 0#24 ∧ (sWith (.eeprom eeprom6)).g2.nvs2 ≠ .unresolved := by
  refine ⟨open2By_cpu rfl, open2By_chan _ rfl, ?_, ?_, ?_, open2By_cpu rfl, ?_, open2By_cpu rfl, by decide,
    by simp [sWith, setNvs2]⟩
  · rintro ⟨-, e, h⟩; exact absurd h (by simp [sG2, State.ofConfig, nvs2Of, Config.standard])
  · show ¬ InWindow sG2 0x0CFFFFFF
    unfold InWindow; decide
  · rintro ⟨h, -⟩; revert h; unfold InWindow; decide
  · rintro ⟨h, -⟩; revert h; unfold InWindow; decide

/-- The CPU and a channel; the offsets at which the clauses meet. -/
theorem witness_DmaRegisterCells :
    Open2 sG2 ∧ Open2By sG2 .cpu ∧ Open2By sG2 (.chan .c0) ∧ Dma2Ok sG2
    ∧ (0 : Fin 12).val / 2 ≠ 5 ∧ (9 : Fin 12).val / 2 ≠ 5 ∧ (10 : Fin 12).val / 2 = 5 ∧ (11 : Fin 12).val / 2 = 5
    ∧ (7 : Fin 12).val / 4 ≠ 2 ∧ (8 : Fin 12).val / 4 = 2 ∧ (11 : Fin 12).val / 4 = 2 :=
  ⟨open2_of rfl, open2By_cpu rfl, open2By_chan _ rfl, sG2_ok.2.2.2, by decide⟩

theorem waiting_ok (k : Chan) : Open2 (waiting k 0xA260) ∧ Dma2Ok (waiting k 0xA260) := by
  cases k <;> exact ⟨open2_of rfl, dma2_of (by decide)⟩

/-- A channel at work. -/
def working (k : Chan) (c : DmaChannel) : State := setChan k { c with state := .active } sG2

/-- Each clause: no change of the enable bit, a refused and an accepted rise, a fall of an Inactive, of a
Paused and of an Active channel; and each of the forms. -/
theorem witness_DmaControlWrite :
    Open2By sG2 .cpu ∧ Dma2Ok sG2 ∧ Open2By (waiting .c0 0xA260) .cpu ∧ Dma2Ok (waiting .c0 0xA260)
    ∧ (let s := working .c0 { sG2.g2.dma.c0 with cntH.value := 0x8000, remaining := 1 }
       Open2By s (.chan .c0) ∧ Dma2Ok s ∧ field (chan s .c0).cntH.value 15 1 = 1 ∧ (chan s .c0).state = .active)
    ∧ (0x8180 : Half) = 1#1 ++ 0x180#15 ∧ (0x0180 : Half) = 0#1 ++ 0x180#15
    ∧ field (chan sG2 .c0).cntH.value 15 1 = field (0x0180 &&& cntHMask .c0) 15 1
    ∧ field (chan sG2 .c0).cntH.value 15 1 = 0 ∧ field (0x8180 &&& cntHMask .c0) 15 1 = 1
    ∧ (∃ r, Refused499 .c0 (chan sG2 .c0) (0x8180 &&& cntHMask .c0) r)
    ∧ (¬ ∃ r, Refused499 .c0 (chan sG2 .c0) (0x8000 &&& cntHMask .c0) r)
    ∧ field (chan (waiting .c0 0xA260) .c0).cntH.value 15 1 = 1
    ∧ ((chan (waiting .c0 0xA260) .c0).state = .starting ∨ (chan (waiting .c0 0xA260) .c0).state = .paused)
    ∧ field (chan (setChan .c0 { sG2.g2.dma.c0 with cntH.value := 0x8000 } sG2) .c0).cntH.value 15 1 = 1
    ∧ (chan (setChan .c0 { sG2.g2.dma.c0 with cntH.value := 0x8000 } sG2) .c0).state = .inactive := by
  refine ⟨open2By_cpu rfl, sG2_ok.2.2.2, open2By_cpu rfl, (waiting_ok .c0).2,
    ⟨⟨rfl, by decide, .inr ⟨_, rfl⟩⟩, dma2_of (by decide), by decide, rfl⟩, by decide, by decide, by decide,
    by decide, by decide, ⟨_, .inl ⟨by decide, rfl⟩⟩, ?_, by decide, .inr rfl, by decide, by decide⟩
  rintro ⟨r, ⟨h, -⟩ | ⟨h, -⟩ | ⟨h, -⟩ | ⟨h, -⟩⟩ <;> revert h <;> decide

theorem witness_TriggersStartWaitingChannels :
    (waiting .c0 0xA260).cfg.gen = .gen2 ∧ (chan (waiting .c0 0xA260) .c0).state = .paused
    ∧ Fires .triggerHblank (chan (waiting .c0 0xA260) .c0)
    ∧ ¬ Fires .triggerVblank (chan (waiting .c0 0xA260) .c0)
    ∧ Fires .triggerVblank (chan (waiting .c3 0x9260) .c3)
    ∧ Fires .triggerFifoa { (chan (waiting .c1 0xB640) .c1) with fifo := true, dst := 0x40000A0 }
    ∧ Fires .triggerFifob { (chan (waiting .c1 0xB640) .c1) with fifo := true, dst := 0x40000A4 }
    ∧ sA.cfg.gen = .gen1 ∧ armed.cfg.gen = .gen1 := by
  refine ⟨rfl, rfl, .inr (.inl ⟨by decide, rfl⟩), ?_, .inl ⟨by decide, rfl⟩, .inr (.inr ⟨rfl, .inl ⟨rfl, rfl⟩⟩),
    .inr (.inr ⟨rfl, .inr ⟨rfl, rfl⟩⟩), rfl, rfl⟩
  rintro (⟨h, -⟩ | ⟨-, h⟩ | ⟨h, -⟩)
  · revert h; decide
  · cases h
  · revert h; decide

/-- Channel 3 with its registers written for a block of `n` units. -/
def block (src dst : Half) (n : Half) : State :=
  setChan .c3 { sG2.g2.dma.c3 with
    sadL.value := src, sadH.value := if src = 0 then 0x0200 else 0x0203,
    dadL.value := dst, dadH.value := 0x0300, cntL.value := n } sG2

/-- A channel at work on its last unit but `n`, with a Starting channel and another Active one beside it. -/
def midway (n : Nat) (ctl : Half) (dst : BitVec 28) (invalid : Bool) (count : Int) : State :=
  setChan .c2 { sG2.g2.dma.c2 with state := .active, counter := 1, remaining := 1 }
    (setChan .c0 { sG2.g2.dma.c0 with state := .starting, counter := 1, remaining := 1 }
      (working .c1 { sG2.g2.dma.c1 with
        cntH.value := ctl, src := 0x02000000, dst := dst, remaining := n + 1, counter := count,
        srcInvalid := invalid }))

theorem at_work_of {s : State} (h : open2 { s with g2.dma := sG2.g2.dma } = true)
    (b : storageBusy s.g2.nvs2 = false) (a : (chan s .c1).state = .active)
    (l : (chan s .c0).state ≠ .active) : AtWork s .c1 := by
  have o := open2_of h
  refine ⟨o.1, o.2.1, b, a, fun j hj => ?_⟩
  cases j
  · exact l
  · exact absurd hj (by decide)
  · exact absurd hj (by decide)
  · exact absurd hj (by decide)

/-- One cycle: a counter that has not run out, and one that has, to the second work RAM and to each FIFO, from a
valid and from an invalid source, with a repeat, a decrement and a fixed address. -/
theorem witness_Gen2TransferCopiesBlock_cycle :
    ∀ p ∈ [(0, (0x8000 : Half), (0x03000000 : BitVec 28), false, (2 : Int)), (0, 0xA260, 0x03000000, false, 1),
           (1, 0x84A0, 0x03007FFC, true, 1), (0, 0x8540, 0x040000A0, false, 1), (0, 0xB640, 0x040000A4, false, 1)],
      let s := midway p.1 p.2.1 p.2.2.1 p.2.2.2.1 p.2.2.2.2
      AtWork s .c1 ∧ MemoryOk s ∧ SizesOk s ∧ Dma2Ok s ∧ (chan s .c1).counter = p.2.2.2.2
      ∧ (chan s .c1).eepromWrote = false
      ∧ ((chan s .c1).srcInvalid = true ∨ (chan s .c1).src.toNat / 0x1000000 = 2)
      ∧ ((chan s .c1).dst.toNat / 0x1000000 = 3 ∨ (chan s .c1).dst = 0x040000A0 ∨ (chan s .c1).dst = 0x040000A4) := by
  intro p hp
  simp only [List.mem_cons, List.not_mem_nil, or_false] at hp
  obtain rfl | rfl | rfl | rfl | rfl := hp <;>
    exact ⟨at_work_of rfl rfl rfl (by decide), by show Memory.wf _ = true; decide, sizes_of (by decide),
      dma2_of (by decide), rfl, rfl, by decide, by decide⟩

/-- A whole block of words with an interrupt, and the last halfword of each memory without one. -/
theorem witness_Gen2TransferCopiesBlock :
    ∀ p ∈ [(block 0 0 0x2000, (0x4400 : BitVec 15), 0x2000, 4), (block 0xFFFE 0x7FFE 1, 0x0060, 1, 2)],
      let s := p.1
      let h : Half := 1#1 ++ p.2.1
      Open2 s ∧ MemoryOk s ∧ SizesOk s ∧ Dma2Ok s ∧ OnlyChannel s .c3
      ∧ field (chan s .c3).cntH.value 15 1 = 0 ∧ field h 12 2 = 0 ∧ (field h 5 2 = 0 ∨ field h 5 2 = 3)
      ∧ field h 7 2 = 0 ∧ p.2.2.1 = unitsOf .c3 (chan s .c3)
      ∧ p.2.2.2 = (if field h 10 1 = 1 then 4 else 2)
      ∧ sourceOf .c3 (chan s .c3) % p.2.2.2 = 0 ∧ destOf .c3 (chan s .c3) % p.2.2.2 = 0
      ∧ 0x02000000 ≤ sourceOf .c3 (chan s .c3) ∧ sourceOf .c3 (chan s .c3) + p.2.2.1 * p.2.2.2 ≤ 0x02040000
      ∧ 0x03000000 ≤ destOf .c3 (chan s .c3) ∧ destOf .c3 (chan s .c3) + p.2.2.1 * p.2.2.2 ≤ 0x03008000
      ∧ ∃ t, exec (enableRow .c3 p.2.1) s = .next t := by
  intro p hp
  simp only [List.mem_cons, List.not_mem_nil, or_false] at hp
  obtain rfl | rfl := hp <;>
    exact ⟨open2_of rfl, by show Memory.wf _ = true; decide, sizes_of (by decide), dma2_of (by decide),
      ⟨fun j _ => .inl (by cases j <;> rfl), rfl⟩, by decide, by decide, by decide, by decide, by decide, by decide,
      by decide, by decide, by decide, by decide, by decide, by decide, _, rfl⟩

/-! #### Storage -/

theorem flashes_ok (st : FlashState) (l : FlashCommand) (h : st = .command → l = .program ∨ l = .bankSwitch) :
    StorageOk (sWith (.flash (flash st l))) := flash_state_ok st l h

/-- Every variant. -/
theorem witness_StorageWindowReads :
    let b := Image.filled 0x8000 0xFF
    let i := { flash .notStarted .none with idMode := true }
    Open2 (sWith (.batteryRam b)) ∧ StorageOk (sWith (.batteryRam b))
    ∧ Open2 (sWith (.flash i)) ∧ StorageOk (sWith (.flash i)) ∧ i.idMode = true
    ∧ Open2 sG2 ∧ StorageOk sG2 ∧ sG2.g2.nvs2 = .unresolved
    ∧ Open2 (sWith (.eeprom eeprom6)) ∧ StorageOk (sWith (.eeprom eeprom6)) :=
  ⟨open2_of rfl, rfl, open2_of rfl, ⟨.inr rfl, by decide, fun _ => rfl, by decide, by decide⟩, rfl, open2_of rfl,
   trivial, rfl, open2_of rfl, rfl, by decide⟩

/-- The last byte of a battery RAM and the first beyond it; the unlock byte and another. -/
theorem witness_StorageWindowWrites :
    let b := Image.filled 0x8000 0xFF
    Open2 (sWith (.batteryRam b)) ∧ StorageOk (sWith (.batteryRam b)) ∧ MemoryOk (sWith (.batteryRam b))
    ∧ (0x1007FFF : BitVec 25).toNat % 0x10000 < 0x8000 ∧ 0x8000 ≤ (0x8000 : BitVec 25).toNat % 0x10000
    ∧ Open2 (sWith (.eeprom eeprom6)) ∧ StorageOk (sWith (.eeprom eeprom6)) ∧ MemoryOk (sWith (.eeprom eeprom6))
    ∧ Open2 (sWith (.flash (flash .ready .none))) ∧ StorageOk (sWith (.flash (flash .ready .none)))
    ∧ Open2 sG2 ∧ StorageOk sG2 ∧ MemoryOk sG2 ∧ sG2.g2.nvs2 = .unresolved
    ∧ (0x1005555 : BitVec 25).toNat % 0x10000 = 0x5555 ∧ storedByte .b2 0x5555 0xAA00 = 0xAA
    ∧ ¬ ((0x5554 : BitVec 25).toNat % 0x10000 = 0x5555 ∧ storedByte .b1 0x5554 0xAA = 0xAA) :=
  ⟨open2_of rfl, rfl, by show Memory.wf _ = true; decide, by decide, by decide, open2_of rfl, ⟨rfl, by decide⟩,
   by show Memory.wf _ = true; decide, open2_of rfl, flashes_ok _ _ (by decide), open2_of rfl, trivial, by show Memory.wf _ = true; decide, rfl, by decide,
   by decide, by decide⟩

/-- A unit into the window that ends its activation, by its count or by a stop, and one that does not. -/
theorem witness_EepromWindowBits_unit :
    ∀ p ∈ [(0, false), (1, false), (1, true)],
      let s := setNvs2 (.eeprom eeprom6)
        (setChan .c1 { (chan (midway p.1 0x8000 0x0D000000 false 1) .c1) with stop := p.2 }
          (midway p.1 0x8000 0x0D000000 false 1))
      AtWork s .c1 ∧ MemoryOk s ∧ SizesOk s ∧ Dma2Ok s ∧ s.g2.nvs2 = .eeprom eeprom6
      ∧ (chan s .c1).counter = 1 ∧ (chan s .c1).srcInvalid = false ∧ (chan s .c1).src.toNat / 0x1000000 = 2
      ∧ InWindow s (chan s .c1).dst.toNat
      ∧ (Ends (chan s .c1) ↔ (p.1 = 0 ∨ p.2 = true)) := by
  intro p hp
  simp only [List.mem_cons, List.not_mem_nil, or_false] at hp
  obtain rfl | rfl | rfl := hp <;>
    exact ⟨at_work_of rfl rfl rfl (by decide), by show Memory.wf _ = true; decide, sizes_of (by decide),
      dma2_of (by decide), rfl, rfl, rfl, by decide, by unfold InWindow; decide, by unfold Ends; decide⟩

/-- The window of a small ROM and of a large one, at both ends; each variant; a channel at work, which
stalls the CPU. -/
theorem witness_EepromWindowBits :
    (let s := setChan .c3 { sG2.g2.dma.c3 with state := .active, remaining := 1 } (sWith (.eeprom eeprom6))
     Open2By s (.chan .c3) ∧ Stalled s ∧ s.g2.nvs2 = .eeprom eeprom6)
    ∧ Open2By sG2 (.chan .c3) ∧ Open2By (sWith (.eeprom eeprom6)) .cpu ∧ Open2By sBigRom .cpu ∧ Open2By sG2 .cpu ∧ sG2.g2.nvs2 = .unresolved
    ∧ InWindow (sWith (.eeprom eeprom6)) (0x0D000000 + (0 : BitVec 24).toNat)
    ∧ InWindow (sWith (.eeprom eeprom6)) (0x0D000000 + (0xFFFFFF : BitVec 24).toNat)
    ∧ InWindow sG2 (0x0D000000 + (0 : BitVec 24).toNat)
    ∧ InWindow sBigRom (0x0D000000 + (0xFFFF00 : BitVec 24).toNat)
    ∧ InWindow sBigRom (0x0D000000 + (0xFFFFFF : BitVec 24).toNat)
    ∧ (sWith (.eeprom eeprom6)).g2.nvs2 = .eeprom eeprom6
    ∧ (∃ f, (sWith (.flash (flash .ready .none))).g2.nvs2 = .flash f)
    ∧ Open2By (sWith (.flash (flash .ready .none))) .cpu := by
  refine ⟨⟨⟨rfl, by decide, .inr ⟨_, rfl⟩⟩, stalled_of rfl, rfl⟩, open2By_chan _ rfl, open2By_cpu rfl,
    open2By_cpu rfl, open2By_cpu rfl, rfl, ?_, ?_, ?_, ?_, ?_, rfl, ⟨_, rfl⟩, open2By_cpu rfl⟩ <;> unfold InWindow <;> decide

/-- A malformed stream: of no length, of a length between, without the start bit. -/
theorem witness_EepromStreams_malformed :
    ∀ l ∈ [[], [true, true, false], false :: List.replicate 7 true],
      let s := call (streamFrame l) (sWith (.eeprom eeprom6))
      Malformed l ∧ s.cfg.gen = .gen2 ∧ constructionRefusal s.cfg = none
      ∧ (∃ p, s.pending = [p] ∧ s.host.now ≤ p.host.now ∧ p.frame = streamFrame l)
      ∧ s.g2.nvs2 = .eeprom eeprom6 ∧ eeprom6.pending = [] := by
  intro l hl
  simp only [List.mem_cons, List.not_mem_nil, or_false] at hl
  obtain rfl | rfl | rfl := hl <;>
    exact ⟨by unfold Malformed; decide, rfl, by decide, ⟨_, rfl, le_rfl, rfl⟩, rfl, rfl⟩

/-- Streams whose read/write bit is not the one of their length, into an Eeprom of known and of unknown length. -/
theorem witness_EepromStreams_unfit :
    ∀ l ∈ [[true, false] ++ List.replicate 6 true, [true, true] ++ List.replicate 79 true],
      ∀ e ∈ [eeprom6, freshEeprom .unknown (Image.filled 8192 0xFF)],
        let s := call (streamFrame l) (sWith (.eeprom e))
        Unfit l ∧ s.cfg.gen = .gen2 ∧ constructionRefusal s.cfg = none ∧ MemoryOk s ∧ StorageOk s
        ∧ (∃ p, s.pending = [p] ∧ s.host.now ≤ p.host.now ∧ p.frame = streamFrame l)
        ∧ s.g2.nvs2 = .eeprom e ∧ e.pending = [] := by
  intro l hl e he
  simp only [List.mem_cons, List.not_mem_nil, or_false] at hl he
  obtain rfl | rfl := hl <;> obtain rfl | rfl := he <;>
    exact ⟨by unfold Unfit; decide, rfl, by decide, by show Memory.wf _ = true; decide,
      ⟨rfl, by decide⟩, ⟨_, rfl, le_rfl, rfl⟩, rfl, rfl⟩

/-- An Eeprom of known length, one of unknown length, and one with a write in flight. -/
theorem witness_EepromStreams :
    let u := freshEeprom .unknown (Image.filled 8192 0xFF)
    let b := { eeprom6 with ready := false, busy := some ⟨1, 63, 0⟩ }
    (∀ e ∈ [eeprom6, u, b], (sWith (.eeprom e)).cfg.gen = .gen2 ∧ (sWith (.eeprom e)).g2.nvs2 = .eeprom e
      ∧ e.pending = [] ∧ MemoryOk (sWith (.eeprom e)) ∧ StorageOk (sWith (.eeprom e)))
    ∧ eeprom6.addrBits = .six ∧ eeprom6.busy = none
    ∧ (eeprom6.addrBits ≠ .unknown ∧ eeprom6.addrBits ≠ .fourteen)
    ∧ u.addrBits = .unknown ∧ u.busy = none ∧ b.addrBits = .six ∧ b.busy.isSome = true := by
  refine ⟨fun e h => ?_, rfl, rfl, by decide, rfl, rfl, rfl, rfl⟩
  simp only [List.mem_cons, List.not_mem_nil, or_false] at h
  obtain rfl | rfl | rfl := h <;>
    exact ⟨rfl, rfl, rfl, by show Memory.wf _ = true; decide, rfl, by decide⟩

/-- Each state of the command machine, a busy flash, and bytes that no state takes. -/
theorem witness_FlashCommands :
    (∀ p ∈ [(FlashState.notStarted, FlashCommand.none), (.starting, .none), (.ready, .erase),
            (.ready, .none), (.command, .program), (.command, .bankSwitch)],
      Open2 (sWith (.flash (flash p.1 p.2))) ∧ StorageOk (sWith (.flash (flash p.1 p.2)))
        ∧ (flash p.1 p.2).busy = none ∧ (flash p.1 p.2).bytes.size = 0x20000)
    ∧ StorageOk (sWith (.flash { flash .notStarted .program with busy := some ⟨1, .eraseChip⟩ }))
    ∧ ¬ Recognized (flash .notStarted .none) 0x5554 0xAA ∧ ¬ Recognized (flash .starting .none) 0x2AAA 0x56
    ∧ ¬ Recognized (flash .ready .none) 0x3456 0x30 ∧ ¬ Recognized (flash .command .bankSwitch) 1 1 := by
  refine ⟨fun p h => ?_, ⟨.inr rfl, by decide, fun _ => rfl, by decide, by decide⟩, ?_, ?_, ?_, ?_⟩
  · simp only [List.mem_cons, List.not_mem_nil, or_false] at h
    obtain rfl | rfl | rfl | rfl | rfl | rfl := h <;>
      exact ⟨open2_of rfl, flashes_ok _ _ (by decide), rfl, rfl⟩
  all_goals
    intro h
    simp [Recognized, flash] at h

/-- Each action of a flash and the write of an Eeprom, the last word too, one cycle before the end. -/
theorem witness_DeferredStorageCompletes :
    (∀ a ∈ [FlashAction.program 0x1FFFF 0, .eraseChip, .eraseSector 0x1F000],
      let f := { flash .notStarted .program with busy := some { remaining := ((0 : Nat) : Int) + 1, action := a } }
      (sWith (.flash f)).cfg.gen = .gen2 ∧ MemoryOk (sWith (.flash f)) ∧ StorageOk (sWith (.flash f))
      ∧ (∀ k, (chan (sWith (.flash f)) k).state = .inactive ∨ (chan (sWith (.flash f)) k).state = .paused))
    ∧ ∀ w ∈ [0, 63, 64],
      let e := { eeprom6 with ready := false, busy := some { remaining := ((0 : Nat) : Int) + 1, word := w, data := 1 } }
      MemoryOk (sWith (.eeprom e)) ∧ StorageOk (sWith (.eeprom e))
      ∧ (∀ k, (chan (sWith (.eeprom e)) k).state = .inactive ∨ (chan (sWith (.eeprom e)) k).state = .paused) := by
  constructor
  · intro a _
    exact ⟨rfl, rfl, ⟨.inr rfl, rfl, fun _ => rfl, (fun h => by cases h), (fun h => by cases h)⟩,
      fun k => .inl (by cases k <;> rfl)⟩
  · intro w _
    exact ⟨rfl, ⟨rfl, fun _ => rfl, fun _ => rfl⟩, fun k => .inl (by cases k <;> rfl)⟩

/-! #### Save files -/

/-- A cartridge with a clock and 0x800 bytes of RAM. -/
def sSmall : State := gen1 (cartOf .c 2 0x800 true false) false

set_option maxRecDepth 40000 in
/-- No battery; a battery; a file of the right and of a wrong size; a trailer in range and one with a
minute of 60. -/
theorem witness_Gen1Load :
    let none := { sA with cfg.cart.hasBattery := false }
    let bare := gen1 (cartOf .c 2 0 true false) false
    let good := List.replicate 0x30 (0 : Byte)
    let bad := [(0 : Byte), 0, 0, 0, 60] ++ List.replicate 0x2B 0
    none.cfg.gen = .gen1 ∧ none.loadable = true ∧ none.cfg.cart.hasBattery = false
    ∧ bare.cfg.gen = .gen1 ∧ bare.loadable = true ∧ bare.cfg.cart.hasBattery = true
    ∧ ([] : List Byte).length = ramPart bare ∧ good.length = ramPart bare + 0x30 ∧ bare.cfg.cart.hasRtc = true
    ∧ [(1 : Byte)].length ≠ ramPart bare ∧ [(1 : Byte)].length ≠ ramPart bare + 0x30
    ∧ bad.length = ramPart bare + 0x30 ∧ TrailerInRange good (ramPart bare) ∧ ¬ TrailerInRange bad (ramPart bare) := by
  refine ⟨rfl, rfl, rfl, rfl, rfl, rfl, by decide, by decide, rfl, by decide, by decide, by decide, ?_, ?_⟩
  · intro p h
    obtain rfl | rfl := h <;>
      exact ⟨by decide, by decide, by decide, by decide, 0, 0, 0, by decide, by decide, by decide, by decide⟩
  · intro h
    have := (h _ (.inl rfl)).2.1
    revert this
    decide

theorem rtc_fresh_ok : RtcOk sSmall := ⟨by decide, by decide, by decide, by decide, by decide, by decide⟩

theorem witness_Gen1Serialize :
    sSmall.cfg.gen = .gen1 ∧ MemoryOk sSmall ∧ SizesOk sSmall ∧ RtcOk sSmall
    ∧ sSmall.cfg.cart.hasBattery = true ∧ sSmall.cfg.cart.hasRtc = true
    ∧ MemoryOk sA ∧ SizesOk sA ∧ RtcOk sA ∧ sA.cfg.cart.hasBattery = true ∧ sA.cfg.cart.hasRtc = false
    ∧ ({ sA with cfg.cart.hasBattery := false } : State).cfg.cart.hasBattery = false :=
  ⟨rfl, by show Memory.wf _ = true; decide, sizes_of (by decide), rtc_fresh_ok, rfl, rfl,
   by show Memory.wf _ = true; decide, sizes_of (by decide),
   ⟨by decide, by decide, by decide, by decide, by decide, by decide⟩, rfl, rfl, rfl⟩

theorem witness_Gen2LoadAndSerialize :
    sG2.cfg.gen = .gen2 ∧ sG2.loadable = true ∧ sG2.cfg.saveOverride = none ∧ sG2.g2.nvs2 = .unresolved
    ∧ ({ sG2 with cfg.saveOverride := some .flash128 } : State).cfg.saveOverride = some .flash128
    ∧ (List.replicate 0x200 (0 : Byte)).length = fileSize .eeprom6
    ∧ (∀ v, [(1 : Byte)].length ≠ fileSize v)
    ∧ (freshEeprom .unknown (Image.filled 8192 0xFF)).addrBits = .unknown
    ∧ eeprom6.addrBits ≠ .unknown ∧ (sWith (.eeprom eeprom6)).g2.nvs2 = .eeprom eeprom6 :=
  ⟨rfl, rfl, rfl, rfl, rfl, List.length_replicate, fun v => by cases v <;> decide, rfl, by decide, rfl⟩

/-- A block of each generation that saves, and one of the same parameters that loads. -/
theorem witness_SavedFileLoadsBack :
    (∃ t m, exec (.serializeGen1 true) sSmall = .next t ∧ t.result = .file (some m)) ∧ sSmall.cfg.gen = .gen1
    ∧ sSmall.loadable = true ∧ MemoryOk sSmall ∧ SizesOk sSmall ∧ RtcOk sSmall
    ∧ (-2 ^ 63 ≤ sSmall.host.now ∧ sSmall.host.now < 2 ^ 63) ∧ sSmall.cfg.cart.hasRtc = true
    ∧ (∃ t m, exec (.serializeGen1 true) (sWith (.eeprom eeprom6)) = .next t ∧ t.result = .file (some m))
    ∧ (sWith (.eeprom eeprom6)).cfg.gen = .gen2 ∧ sG2.cfg = (sWith (.eeprom eeprom6)).cfg
    ∧ (sWith (.eeprom eeprom6)).host.now ≤ sG2.host.now ∧ sG2.loadable = true ∧ MemoryOk (sWith (.eeprom eeprom6))
    ∧ SizesOk (sWith (.eeprom eeprom6)) ∧ SizesOk sG2 ∧ StorageOk (sWith (.eeprom eeprom6))
    ∧ sG2.cfg.saveOverride = none
    ∧ (let s := { sWith (.eeprom eeprom6) with cfg.saveOverride := some .eeprom6 }
       (∃ t, exec (.serializeGen1 true) s = .next t ∧ t.result = .file (some eeprom6.bytes))
       ∧ ∀ v, s.cfg.saveOverride = some v → eeprom6.bytes.size = fileSize v) :=
  ⟨⟨_, _, rfl, rfl⟩, rfl, rfl, by show Memory.wf _ = true; decide, sizes_of (by decide), rtc_fresh_ok, by decide, rfl,
   ⟨_, _, rfl, rfl⟩, rfl, rfl, le_rfl, rfl, by show Memory.wf _ = true; decide, sizes_of (by decide),
   sizes_of (by decide), ⟨rfl, by decide⟩, rfl, ⟨_, rfl, rfl⟩, fun v h => by cases h; rfl⟩

end Sys2Proof.Tests
end

section
/-! PROOFS. What one step is (30_encoding.md R170, R171), and what every step leaves fixed: the parameters
(00_scope.md R8 to R14) and the size of every array (10_state.md R33 to R36, R42, R44). -/
namespace Sys2Proof.Machine

open Sys2Proof.Safety

/-! ### The step, by the list of pending calls -/

theorem step_of_pending_nil {s : State} (h : s.pending = []) : step s = .next s := by
  simp only [step, stepState, h]

theorem step_of_pending_cons {s : State} {p : Pending} {rest : List Pending}
    (h : s.pending = p :: rest) : step s = runCall p rest s := by
  simp only [step, stepState, h]

/-- The converse of `callRefusal_none`: legal parameters and a clock that does not go back let a call
through. -/
theorem callRefusal_of_legal {p : Pending} {s : State} (hc : constructionRefusal s.cfg = none)
    (hn : s.host.now ≤ p.host.now) : callRefusal p s = none := by
  simp only [callRefusal, hc, if_neg (Int.not_lt.2 hn)]

theorem runCall_of_decode {p : Pending} {rest : List Pending} {s : State} {i : Instr}
    (hr : callRefusal p s = none) (hd : decode p.frame = .ok i) :
    runCall p rest s = bindR (exec i (takeCall p rest s)) fun t => .next (afterCall t) := by
  simp only [runCall, hr, runFrame, hd]

/-! ### The layout: the sizes of the arrays and the selected video-RAM bank -/

/-- All that `SizesOk` reads of a state beside its parameters. -/
def layout (s : State) : List Nat × Option Nat × BitVec 1 :=
  ([s.g1.vram.size, s.g1.wram.size, s.g1.oam.size, s.g1.hram.size, s.g2.ewram.size, s.g2.iwram.size,
    s.g2.pal.size, s.g2.vram2.size, s.g2.oam2.size], s.g1.nvs1.map (·.bytes.size), s.g1.vbk)

theorem ramSized_congr {c : Cart} {n m : Option Nvs1}
    (h : m.map (·.bytes.size) = n.map (·.bytes.size)) (hn : ramSized c n) : ramSized c m := by
  cases n <;> cases m <;> simp_all [ramSized]

/-- `SizesOk` is a property of the parameters and the layout. -/
theorem sizesOk_of_layout_eq {s t : State} (hc : t.cfg = s.cfg) (h : layout t = layout s)
    (hs : SizesOk s) : SizesOk t := by
  simp only [layout, Prod.mk.injEq, List.cons.injEq, and_true] at h
  obtain ⟨⟨hvram, hwram, hoam, hhram, hewram, hiwram, hpal, hvram2, hoam2⟩, hnvs, hvbk⟩ := h
  obtain ⟨v, w, o, hr, n, e, i, p, v2, o2, b⟩ := hs
  rw [SizesOk, hc, hvram, hwram, hoam, hhram, hewram, hiwram, hpal, hvram2, hoam2, hvbk]
  exact ⟨v, w, o, hr, ramSized_congr hnvs n, e, i, p, v2, o2, b⟩

/-! ### Operations of generation 1 that keep the layout -/

@[simp] theorem setVdma_layout (d : Vdma) (s : State) : layout (setVdma d s) = layout s := rfl

@[simp] theorem writeVram_layout (i : Nat) (v : Byte) (s : State) : layout (writeVram i v s) = layout s := by
  simp [layout]

@[simp] theorem writeWram_layout (i : Nat) (v : Byte) (s : State) : layout (writeWram i v s) = layout s := by
  simp [layout]

@[simp] theorem writeOam_layout (i : Nat) (v : Byte) (s : State) : layout (writeOam i v s) = layout s := by
  simp [layout]

@[simp] theorem writeHram_layout (i : Nat) (v : Byte) (s : State) : layout (writeHram i v s) = layout s := by
  simp [layout]

theorem writeControl_layout (a : Half) (v : Byte) (s : State) : layout (writeControl a v s) = layout s := by
  unfold writeControl writeControlA writeControlB writeControlC writeControlD ramgA rombA rambA modeA
    ramgB rombB ramgC rombC rambC latchC ramgD romb0D romb1D rambD
  repeat' split
  all_goals rfl

theorem writeNvs1_layout (o : Nat) (v : Byte) (s : State) : layout (writeNvs1 o v s) = layout s := by
  unfold writeNvs1
  split
  · rfl
  · rename_i n h
    simp [layout, h]

theorem setOamDma_layout (d : OamDma) (s : State) : layout (setOamDma d s) = layout s := rfl

theorem oamArm_layout (v : Byte) (s : State) : layout (oamArm v s) = layout s := rfl

theorem oamEnterActive_layout (s : State) : layout (oamEnterActive s) = layout s := rfl

theorem oamStart_layout (v : Byte) (s : State) : layout (oamStart v s) = layout s := by
  unfold oamStart
  split
  · rw [oamEnterActive_layout, oamArm_layout]
  · rw [setOamDma_layout, oamArm_layout]

theorem writeDma_layout (v : Byte) (s : State) : layout (writeDma v s) = layout s := by
  rw [writeDma, oamStart_layout, setOamDma_layout]

theorem writeBoot_layout (v : Byte) (s : State) : layout (writeBoot v s) = layout s := by
  unfold writeBoot; split <;> rfl

theorem writeSvbk_layout (v : Byte) (s : State) : layout (writeSvbk v s) = layout s := by
  unfold writeSvbk; split <;> rfl

theorem writeVdmaReg_layout {a : Half} {v : Byte} {s t : State} (h : writeVdmaReg a v s = .next t) :
    layout t = layout s := by
  unfold writeVdmaReg at h
  repeat' split at h
  case isFalse.isFalse.isFalse.isFalse.isFalse =>
    obtain ⟨d, -, hd⟩ := bindR_eq_next.1 h
    cases hd; rfl
  all_goals cases h; rfl

theorem vdmaHBlank_layout (s : State) : layout (vdmaHBlank s) = layout s := by
  unfold vdmaHBlank; split <;> rfl

theorem oamStore_layout (b : Byte) (s : State) : layout (oamStore b s) = layout s :=
  writeOam_layout s.g1.oamDma.index b s

theorem oamNext_layout (s : State) : layout (oamNext s) = layout s := by
  unfold oamNext; split <;> rfl

theorem vdmaStore_layout (b : Byte) (s : State) : layout (vdmaStore b s) = layout s := by
  simp [vdmaStore]

theorem normalizedFor_layout (s : State) : layout (normalizedFor s) = layout s := by
  unfold normalizedFor; split <;> rfl

/-! ### Operations of generation 2 that keep the layout -/

@[simp] theorem setChan_layout (k : Chan) (d : DmaChannel) (s : State) :
    layout (setChan k d s) = layout s := rfl

theorem writePal_layout (a : Word) (w : Width) (v : Word) (s : State) :
    layout (writePal a w v s) = layout s := by
  cases w <;> simp [writePal, layout, storeTwice]

theorem writeVram2_layout (a : Word) (w : Width) (v : Word) (s : State) :
    layout (writeVram2 a w v s) = layout s := by
  cases w
  · simp only [writeVram2]
    split <;> simp [layout, storeTwice]
  all_goals simp [writeVram2, layout]

theorem writeOam2_layout (a : Word) (w : Width) (v : Word) (s : State) :
    layout (writeOam2 a w v s) = layout s := by
  cases w <;> simp [writeOam2, layout]

theorem storageWriteByte_layout {o : Half} {v : Byte} {s t : State}
    (h : storageWriteByte o v s = .next t) : layout t = layout s := by
  rw [storageWriteByte_frame h]; rfl

theorem sniffStorage_layout (o : Half) (v : Byte) (s : State) :
    layout (sniffStorage o v s) = layout s := by
  unfold sniffStorage; split <;> rfl

theorem appendBit_layout (b : Bool) (s : State) : layout (appendBit b s) = layout s := by
  unfold appendBit; split <;> rfl

@[simp] theorem endStream_layout (s : State) : layout (endStream s) = layout s := by
  rw [endStream_frame]; rfl

@[simp] theorem streamBoundary_layout (k : Chan) (s : State) :
    layout (streamBoundary k s) = layout s := by
  unfold streamBoundary; split <;> simp

@[simp] theorem dmaHalt_layout (k : Chan) (s : State) : layout (dmaHalt k s) = layout s := by
  simp [dmaHalt]

@[simp] theorem requestIfIrq_layout (k : Chan) (s : State) : layout (requestIfIrq k s) = layout s := by
  unfold requestIfIrq; split <;> rfl

@[simp] theorem dmaComplete_layout (k : Chan) (s : State) : layout (dmaComplete k s) = layout s := by
  simp [dmaComplete, beforeReload]

@[simp] theorem afterUnit_layout (k : Chan) (s : State) : layout (afterUnit k s) = layout s := by
  unfold afterUnit
  split
  · exact dmaComplete_layout k s
  · split
    · exact dmaHalt_layout k s
    · rfl

theorem rearm_layout (k : Chan) (s : State) : layout (rearm k s) = layout s := by
  unfold rearm; split <;> rfl

/-! ### The two operations that may change the layout -/

/-- 41_bus.md R231: only a colour machine has a bank to select. -/
theorem writeVbk_sizesOk (v : Byte) {s : State} (hs : SizesOk s) : SizesOk (writeVbk v s) := by
  unfold writeVbk
  split
  · rename_i hc
    obtain ⟨vr, wr, oa, hr, n, e, i, p, v2, o2, -⟩ := hs
    exact ⟨vr, wr, oa, hr, n, e, i, p, v2, o2, fun h => absurd (hc.symm.trans h) (by decide)⟩
  · exact hs

/-- Cartridge RAM replaced by as many bytes as the RAM part of a save file has (48_persistence.md R551). -/
theorem ramSized_replace {c : Cart} {n : Option Nvs1} {m : Image} (hm : m.size = saveBase c)
    (hn : ramSized c n) : ramSized c (n.map fun x => { x with bytes := m }) := by
  cases n <;> by_cases hb : c.family = .b <;> simp_all [ramSized, saveBase]

theorem setNvs1Bytes_sizesOk {m : Image} {s : State} (hm : m.size = saveBase s.cfg.cart)
    (hs : SizesOk s) : SizesOk (setNvs1Bytes m s) := by
  obtain ⟨vr, wr, oa, hr, n, rest⟩ := hs
  exact ⟨vr, wr, oa, hr, ramSized_replace hm n, rest⟩

theorem loadNoFile1_sizesOk {s : State} (hs : SizesOk s) : SizesOk (loadNoFile1 s) :=
  setNvs1Bytes_sizesOk (m := drawn (saveBase s.cfg.cart) s.draws) rfl hs

theorem loadTrailer_sizesOk {l : List Byte} {s t : State} (hl : saveBase s.cfg.cart ≤ l.length)
    (h : loadTrailer l s = .next t) (hs : SizesOk s) : SizesOk t := by
  unfold loadTrailer at h
  split at h
  · cases h
    exact setNvs1Bytes_sizesOk (List.length_take_of_le hl) hs
  · cases h

theorem loadBytes1_sizesOk {l : List Byte} {s t : State} (h : loadBytes1 l s = .next t)
    (hs : SizesOk s) : SizesOk t := by
  unfold loadBytes1 at h
  split at h
  · rename_i hl
    cases h
    exact setNvs1Bytes_sizesOk hl hs
  split at h
  · rename_i hl
    exact loadTrailer_sizesOk (by omega) h hs
  · cases h

theorem load1_sizesOk {f : SaveFile} {s t : State} (h : load1 f s = .next t) (hs : SizesOk s) :
    SizesOk t := by
  unfold load1 at h
  split at h
  · cases f <;> cases h
    exact hs
  · cases f with
    | absent => cases h; exact loadNoFile1_sizesOk hs
    | bytes l => exact loadBytes1_sizesOk h hs
    | unreadable => cases h

theorem load2_layout {f : SaveFile} {s t : State} (h : load2 f s = .next t) : layout t = layout s := by
  cases f with
  | absent =>
    cases h
    unfold loadNoFile2
    split <;> rfl
  | bytes l =>
    simp only [load2, loadBytes2] at h
    split at h
    · cases h
    · cases h; rfl
  | unreadable => cases h

theorem callLoad_sizesOk {f : SaveFile} {s t : State} (h : callLoad f s = .next t) (hs : SizesOk s) :
    SizesOk t := by
  have hc := callLoad_cfg h
  unfold callLoad at h
  split at h
  · cases h
  · split at h
    · exact load1_sizesOk h hs
    · exact sizesOk_of_layout_eq hc (load2_layout h) hs

/-! ### Every move and every step -/

/-- A write of the bank register and a `load` may change the layout; every other move keeps it. -/
theorem Move.sizesOk {s t : State} (h : Move s t) (hs : SizesOk s) : SizesOk t := by
  have keep (hl : layout t = layout s) : SizesOk t := sizesOk_of_layout_eq h.cfg hl hs
  cases h with
  | vbk v _ _ => exact writeVbk_sizesOk v hs
  | load f _ _ h => exact callLoad_sizesOk h hs
  | control a v _ _ => exact keep (writeControl_layout a v s)
  | nvs1 o v _ _ => exact keep (writeNvs1_layout o v s)
  | vram i v _ _ => exact keep (writeVram_layout i v s)
  | wram i v _ _ => exact keep (writeWram_layout i v s)
  | oam i v _ _ => exact keep (writeOam_layout i v s)
  | hram i v _ _ => exact keep (writeHram_layout i v s)
  | dmaReg v _ _ => exact keep (writeDma_layout v s)
  | boot v _ _ => exact keep (writeBoot_layout v s)
  | svbk v _ _ => exact keep (writeSvbk_layout v s)
  | vdmaReg a v _ _ _ h => exact keep (writeVdmaReg_layout h)
  | hblank _ _ => exact keep (vdmaHBlank_layout s)
  | oamUnit b _ _ _ => exact keep ((oamNext_layout _).trans (oamStore_layout b s))
  | vdmaStore b _ _ _ => exact keep (vdmaStore_layout b s)
  | normalize _ _ => exact keep (normalizedFor_layout s)
  | ewram o w v _ _ => exact keep (by simp [layout])
  | iwram o w v _ _ => exact keep (by simp [layout])
  | pal a w v _ _ => exact keep (writePal_layout a w v s)
  | vram2 a w v _ _ => exact keep (writeVram2_layout a w v s)
  | oam2 a w v _ _ => exact keep (writeOam2_layout a w v s)
  | storage o v _ _ _ h => exact keep (storageWriteByte_layout h)
  | sniffStorage o v _ _ _ => exact keep (sniffStorage_layout o v s)
  | appendBit b _ _ => exact keep (appendBit_layout b s)
  | endStream _ _ => exact keep (endStream_layout s)
  | unitEnd k c₀ _ _ => exact keep (afterUnit_layout k _)
  | rearm k _ _ => exact keep (rearm_layout k s)
  | _ => exact keep rfl

theorem step_cfg {s t : State} (h : step s = .next t) : t.cfg = s.cfg := by
  obtain rfl | ⟨p, rest, u, -, -, hm, rfl⟩ := step_moves h
  · rfl
  · exact hm.cfg

theorem step_sizesOk {s t : State} (h : step s = .next t) (hs : SizesOk s) : SizesOk t :=
  step_keeps (fun _ _ => Move.sizesOk) (fun _ _ _ _ hs => hs) (fun _ hs => hs) h hs

/-! ### The statements -/

/-- Settles O15: no move changes the parameters, and each keeps the sizes they give. -/
theorem parametersAndSizesAreFixed : Obligations.ParametersAndSizesAreFixed :=
  fun _ _ h => ⟨step_cfg h, step_sizesOk h⟩

/-- Settles O1: a call that is let through is `exec` of what its frame decodes to, then the mark of R550. -/
theorem stepRunsDecodedCall : Obligations.StepRunsDecodedCall := by
  refine ⟨fun s p rest i hp hc hn hd => ?_, fun _ => step_of_pending_nil⟩
  rw [step_of_pending_cons hp, runCall_of_decode (callRefusal_of_legal hc hn) hd]
  unfold takeCall
  cases exec i { s with pending := rest, host := p.host } <;> rfl

end Sys2Proof.Machine
end

section
/-! PROOFS. What a move leaves alone of generation 1 and of the other devices, stated as frames, and two
invariants that follow: the boot ROM stays disabled (10_state.md R32) and the DMA channels keep their
register cells and units (R51, 47_dma_gen2.md R513). -/
namespace Sys2Proof.Machine

open Sys2Proof.Safety

/-! ### Frames of generation 1 -/

theorem writeControl_frame (a : Half) (v : Byte) (s : State) :
    writeControl a v s = { s with
      g1.bank := (writeControl a v s).g1.bank, g1.rtc := (writeControl a v s).g1.rtc,
      g1.rumble := (writeControl a v s).g1.rumble } := by
  unfold writeControl writeControlA writeControlB writeControlC writeControlD ramgA rombA rambA modeA
    ramgB rombB ramgC rombC rambC latchC ramgD romb0D romb1D rambD
  repeat' split
  all_goals rfl

theorem writeNvs1_frame (o : Nat) (v : Byte) (s : State) :
    writeNvs1 o v s = { s with g1.nvs1 := (writeNvs1 o v s).g1.nvs1 } := by
  unfold writeNvs1; split <;> rfl

theorem oamStart_frame (v : Byte) (s : State) :
    oamStart v s = { s with
      g1.oamDma := (oamStart v s).g1.oamDma, g1.blocked := (oamStart v s).g1.blocked } := by
  unfold oamStart
  by_cases h : s.cfg.timing.oamStart = 0
  · simp only [if_pos h, oamEnterActive, oamArm, setOamDma]
  · simp only [if_neg h, oamArm, setOamDma]

theorem writeDma_frame (v : Byte) (s : State) :
    writeDma v s = { s with
      g1.oamDma := (writeDma v s).g1.oamDma, g1.blocked := (writeDma v s).g1.blocked } := by
  rw [writeDma, oamStart_frame]
  rfl

theorem writeVbk_frame (v : Byte) (s : State) :
    writeVbk v s = { s with g1.vbk := (writeVbk v s).g1.vbk } := by
  unfold writeVbk; split <;> rfl

theorem writeSvbk_frame (v : Byte) (s : State) :
    writeSvbk v s = { s with g1.svbk := (writeSvbk v s).g1.svbk } := by
  unfold writeSvbk; split <;> rfl

theorem writeVdmaReg_frame {a : Half} {v : Byte} {s t : State} (h : writeVdmaReg a v s = .next t) :
    t = setVdma t.g1.vdma s := by
  unfold writeVdmaReg at h
  repeat' split at h
  case isFalse.isFalse.isFalse.isFalse.isFalse =>
    obtain ⟨d, -, hd⟩ := bindR_eq_next.1 h
    cases hd; rfl
  all_goals cases h; rfl

theorem vdmaHBlank_frame (s : State) : vdmaHBlank s = setVdma (vdmaHBlank s).g1.vdma s := by
  unfold vdmaHBlank; split <;> rfl

theorem oamNext_frame (s : State) :
    oamNext s = { s with g1.oamDma := (oamNext s).g1.oamDma, g1.blocked := (oamNext s).g1.blocked } := by
  unfold oamNext; split <;> rfl

theorem normalizedFor_frame (s : State) : normalizedFor s = setRtc (normalizedFor s).g1.rtc s := by
  unfold normalizedFor; split <;> rfl

/-! ### Frames of generation 2 -/

theorem writePal_frame (a : Word) (w : Width) (v : Word) (s : State) :
    writePal a w v s = { s with g2.pal := (writePal a w v s).g2.pal } := by
  cases w <;> rfl

theorem writeVram2_frame (a : Word) (w : Width) (v : Word) (s : State) :
    writeVram2 a w v s = { s with g2.vram2 := (writeVram2 a w v s).g2.vram2 } := by
  cases w
  · simp only [writeVram2]; split <;> rfl
  · rfl
  · rfl

theorem writeOam2_frame (a : Word) (w : Width) (v : Word) (s : State) :
    writeOam2 a w v s = { s with g2.oam2 := (writeOam2 a w v s).g2.oam2 } := by
  cases w <;> rfl

theorem sniffStorage_frame (o : Half) (v : Byte) (s : State) :
    sniffStorage o v s
      = { s with draws := (sniffStorage o v s).draws, g2.nvs2 := (sniffStorage o v s).g2.nvs2 } := by
  unfold sniffStorage; split <;> rfl

theorem appendBit_frame (b : Bool) (s : State) : appendBit b s = setNvs2 (appendBit b s).g2.nvs2 s := by
  unfold appendBit; split <;> rfl

/-! ### The frame of `load` -/

theorem load1_frame {f : SaveFile} {s t : State} (h : load1 f s = .next t) :
    t = { s with draws := t.draws, g1.rtc := t.g1.rtc, g1.nvs1 := t.g1.nvs1 } := by
  unfold load1 loadBytes1 loadTrailer at h
  repeat' split at h
  all_goals cases h <;> rfl

theorem load2_frame {f : SaveFile} {s t : State} (h : load2 f s = .next t) :
    t = { s with draws := t.draws, g2.nvs2 := t.g2.nvs2 } := by
  unfold load2 loadBytes2 loadNoFile2 at h
  repeat' split at h
  all_goals cases h <;> rfl

theorem callLoad_frame {f : SaveFile} {s t : State} (h : callLoad f s = .next t) :
    t = { s with
      draws := t.draws, g1.rtc := t.g1.rtc, g1.nvs1 := t.g1.nvs1, g2.nvs2 := t.g2.nvs2 } := by
  unfold callLoad at h
  split at h
  · cases h
  · split at h
    · rw [load1_frame h]
    · rw [load2_frame h]

/-! ### The boot ROM switch and the DMA channels -/

/-- The boot-ROM switch and the DMA channels of generation 2, which the moves on every other element of the
state leave alone. -/
def bootAndDma (s : State) : Bool × Channels := (s.g1.bootEnabled, s.g2.dma)

/-! ### Register cells (10_state.md R51) -/

/-- A store keeps the masks, and changes no bit outside the write mask (40_register.md R202). -/
theorem cellOk_write {r r' : Reg16} {d mask rm wm : Half} (h : r.write d mask = .next r')
    (hr : cellOk r rm wm) : cellOk r' rm wm := by
  unfold Reg16.write at h
  split at h
  · cases h
    obtain ⟨hrm, hwm, hv⟩ := hr
    refine ⟨hrm, hwm, ?_⟩
    rw [Reg16.stored, hwm]
    ext i hi
    have hbit : r.value[i] = true → wm[i] = true := by
      simpa [hi] using congrArg (·.getLsbD i) hv
    cases hw : wm[i] <;> simp_all
  · cases h

/-- A completion's clearing of ENABLE sets no bit (47_dma_gen2.md R510). -/
theorem cellOk_clearEnable {r : Reg16} {rm wm : Half} (hr : cellOk r rm wm) :
    cellOk { r with value := clearEnable r.value } rm wm := by
  obtain ⟨hrm, hwm, hv⟩ := hr
  refine ⟨hrm, hwm, ?_⟩
  rw [clearEnable, BitVec.and_assoc, BitVec.and_comm 0x7FFF, ← BitVec.and_assoc, hv]
  exact BitVec.zero_and

/-! ### One channel -/

/-- A channel as R51 and R513 say. -/
def chanOk (k : Chan) (c : DmaChannel) : Prop := cellsOk k c ∧ unitsOk c

theorem chanOk_setCell {k : Chan} {x : DmaCell} {c : DmaChannel} {r : Reg16} {d mask : Half}
    (hr : (c.cell x).write d mask = .next r) (hc : chanOk k c) : chanOk k (c.setCell x r) := by
  obtain ⟨⟨sadL, sadH, dadL, dadH, cntL, cntH⟩, hunits⟩ := hc
  cases x with
  | sadL => exact ⟨⟨cellOk_write hr sadL, sadH, dadL, dadH, cntL, cntH⟩, hunits⟩
  | sadH => exact ⟨⟨sadL, cellOk_write hr sadH, dadL, dadH, cntL, cntH⟩, hunits⟩
  | dadL => exact ⟨⟨sadL, sadH, cellOk_write hr dadL, dadH, cntL, cntH⟩, hunits⟩
  | dadH => exact ⟨⟨sadL, sadH, dadL, cellOk_write hr dadH, cntL, cntH⟩, hunits⟩
  | cntL => exact ⟨⟨sadL, sadH, dadL, dadH, cellOk_write hr cntL, cntH⟩, hunits⟩
  | cntH => exact ⟨⟨sadL, sadH, dadL, dadH, cntL, cellOk_write hr cntH⟩, hunits⟩

/-- An activation has at least one unit (47_dma_gen2.md R496). -/
theorem one_le_unitCount (k : Chan) (fifo : Bool) (cnt : Half) : 1 ≤ unitCount k fifo cnt := by
  unfold unitCount
  split
  · decide
  · split
    · cases k <;> decide
    · bv_omega

theorem chanOk_dmaStart {k : Chan} {c : DmaChannel} (t : Timing) (hc : cellsOk k c)
    (hu : 1 ≤ c.remaining) : chanOk k (dmaStart t c) := by
  unfold dmaStart
  split <;> exact ⟨hc, fun _ => hu⟩

theorem chanOk_dmaEnable {k : Chan} {c : DmaChannel} (t : Timing) (hc : cellsOk k c) :
    chanOk k (dmaEnable t k c) := by
  unfold dmaEnable
  split
  · exact chanOk_dmaStart t hc (one_le_unitCount ..)
  · exact ⟨hc, fun _ => one_le_unitCount ..⟩

theorem chanOk_dmaStopped {k : Chan} {c : DmaChannel} (hc : cellsOk k c) : chanOk k (dmaStopped c) :=
  ⟨hc, fun h => absurd rfl h⟩

theorem chanOk_startCount {k : Chan} {c : DmaChannel} (t : Timing) (hs : c.state = .starting)
    (hc : chanOk k c) : chanOk k (startCount t c) := by
  have hu : 1 ≤ c.remaining := hc.2 (by rw [hs]; decide)
  unfold startCount
  split <;> exact ⟨hc.1, fun _ => hu⟩

theorem chanOk_triggered {k : Chan} {c : DmaChannel} (t : Timing) (e : Event) (hc : chanOk k c) :
    chanOk k (triggered t e c) := by
  unfold triggered
  split
  · rename_i h
    exact chanOk_dmaStart t hc.1 (hc.2 (by rw [h.1]; decide))
  · exact hc

/-- A completion leaves the units of the next activation, or an Inactive channel (R510). -/
theorem chanOk_completed {k : Chan} {c : DmaChannel} (hc : cellsOk k c) : chanOk k (completed k c) := by
  unfold completed
  split
  · exact ⟨hc, fun _ => one_le_unitCount ..⟩
  · obtain ⟨sadL, sadH, dadL, dadH, cntL, cntH⟩ := hc
    exact ⟨⟨sadL, sadH, dadL, dadH, cntL, cellOk_clearEnable cntH⟩, fun h => absurd rfl h⟩

/-! ### The four channels -/

/-- One channel replaced, where the others are in order. -/
theorem dma2Ok_setChan {k : Chan} {d : DmaChannel} {s : State}
    (ho : ∀ j ≠ k, chanOk j (chan s j)) (hd : chanOk k d) : Dma2Ok (setChan k d s) := by
  intro j
  by_cases hj : j = k
  · subst hj
    rw [chan_setChan_same]
    exact hd
  · rw [chan_setChan_other j k d s hj]
    exact ho j hj

theorem chan_streamBoundary_same (k : Chan) (s : State) :
    chan (streamBoundary k s) k = { chan s k with eepromWrote := false } := by
  rw [chan, streamBoundary_dma, Channels.get_set_same]

theorem chan_streamBoundary_other {j k : Chan} (s : State) (h : j ≠ k) :
    chan (streamBoundary k s) j = chan s j := by
  rw [chan, streamBoundary_dma, Channels.get_set_other _ _ _ _ h, chan]

theorem chan_beforeReload (j k : Chan) (s : State) :
    chan (beforeReload k s) j = chan (streamBoundary k s) j := by
  rw [beforeReload, chan, requestIfIrq_g2, chan]

section
variable {k : Chan} {s : State} (ho : ∀ j ≠ k, chanOk j (chan s j)) (hk : cellsOk k (chan s k))
include ho hk

theorem dma2Ok_dmaHalt : Dma2Ok (dmaHalt k s) := by
  refine dma2Ok_setChan (fun j hj => ?_) (chanOk_dmaStopped ?_)
  · rw [chan_streamBoundary_other s hj]
    exact ho j hj
  · rw [chan_streamBoundary_same]
    exact hk

theorem dma2Ok_dmaComplete : Dma2Ok (dmaComplete k s) := by
  refine dma2Ok_setChan (fun j hj => ?_) (chanOk_completed ?_)
  · rw [chan_beforeReload, chan_streamBoundary_other s hj]
    exact ho j hj
  · rw [chan_beforeReload, chan_streamBoundary_same]
    exact hk

/-- The end of a unit asks nothing of the units left: a channel that has none completes (R503). -/
theorem dma2Ok_afterUnit : Dma2Ok (afterUnit k s) := by
  unfold afterUnit
  split
  · exact dma2Ok_dmaComplete ho hk
  · rename_i hr
    split
    · exact dma2Ok_dmaHalt ho hk
    · intro j
      by_cases hj : j = k
      · subst hj
        exact ⟨hk, fun _ => Nat.one_le_iff_ne_zero.2 hr⟩
      · exact ho j hj

end

theorem dma2Ok_rearm {k : Chan} {s : State} (hs : Dma2Ok s) : Dma2Ok (rearm k s) := by
  unfold rearm
  split
  · exact dma2Ok_setChan (fun j _ => hs j) (hs k)
  · exact hs

theorem rearm_g1 (k : Chan) (s : State) : (rearm k s).g1 = s.g1 := by
  unfold rearm; split <;> rfl

theorem chan_dmaTrigger (e : Event) (s : State) (k : Chan) :
    chan (dmaTrigger e s) k = triggered s.cfg.timing e (chan s k) := by
  cases k <;> rfl

theorem dma2Ok_dmaTrigger (e : Event) {s : State} (hs : Dma2Ok s) : Dma2Ok (dmaTrigger e s) := by
  intro k
  rw [chan_dmaTrigger]
  exact chanOk_triggered _ e (hs k)

/-! ### Every move -/

/-- A move leaves the boot-ROM switch and the DMA channels alone, or is a write of 0xFF50, or is one on a
DMA channel, which keeps generation 1 and the invariant of the channels. -/
theorem Move.bootAndDma_cases {s t : State} (h : Move s t) :
    bootAndDma t = bootAndDma s ∨ (∃ v, t = writeBoot v s)
      ∨ t.g1 = s.g1 ∧ (Dma2Ok s → Dma2Ok t) := by
  have onChan (k : Chan) (d : DmaChannel) (hd : chanOk k (chan s k) → chanOk k d) :
      (setChan k d s).g1 = s.g1 ∧ (Dma2Ok s → Dma2Ok (setChan k d s)) :=
    ⟨rfl, fun hs => dma2Ok_setChan (fun j _ => hs j) (hd (hs k))⟩
  cases h with
  | boot v _ _ => exact .inr (.inl ⟨v, rfl⟩)
  | wrote k b _ _ => exact .inr (.inr (onChan k _ id))
  | cellStore k x d mask r _ _ hr => exact .inr (.inr (onChan k _ (chanOk_setCell hr)))
  | enable k _ _ _ => exact .inr (.inr (onChan k _ fun hc => chanOk_dmaEnable _ hc.1))
  | stop k _ _ _ => exact .inr (.inr (onChan k _ id))
  | stopped k _ _ => exact .inr (.inr (onChan k _ fun hc => chanOk_dmaStopped hc.1))
  | chanCount k _ _ _ => exact .inr (.inr (onChan k _ id))
  | startCount k _ _ hk => exact .inr (.inr (onChan k _ (chanOk_startCount _ hk)))
  | rearm k _ _ => exact .inr (.inr ⟨rearm_g1 k s, dma2Ok_rearm⟩)
  | trigger e _ _ => exact .inr (.inr ⟨rfl, dma2Ok_dmaTrigger e⟩)
  | unitEnd k c₀ _ _ =>
    refine .inr (.inr ⟨afterUnit_g1 k _, fun hs => dma2Ok_afterUnit (fun j hj => ?_) ?_⟩)
    · rw [chan_setChan_other j k _ s hj]
      exact hs j
    · rw [chan_setChan_same]
      exact (hs k).1
  | control a v _ _ => exact .inl (by rw [writeControl_frame]; rfl)
  | nvs1 o v _ _ => exact .inl (by rw [writeNvs1_frame]; rfl)
  | dmaReg v _ _ => exact .inl (by rw [writeDma_frame]; rfl)
  | vbk v _ _ => exact .inl (by rw [writeVbk_frame]; rfl)
  | svbk v _ _ => exact .inl (by rw [writeSvbk_frame]; rfl)
  | vdmaReg a v _ _ _ h => exact .inl (by rw [writeVdmaReg_frame h]; rfl)
  | hblank _ _ => exact .inl (by rw [vdmaHBlank_frame]; rfl)
  | oamUnit b _ _ _ => exact .inl (by rw [oamNext_frame]; rfl)
  | normalize _ _ => exact .inl (by rw [normalizedFor_frame]; rfl)
  | pal a w v _ _ => exact .inl (by rw [writePal_frame]; rfl)
  | vram2 a w v _ _ => exact .inl (by rw [writeVram2_frame]; rfl)
  | oam2 a w v _ _ => exact .inl (by rw [writeOam2_frame]; rfl)
  | storage o v _ _ _ h => exact .inl (by rw [storageWriteByte_frame h]; rfl)
  | sniffStorage o v _ _ _ => exact .inl (by rw [sniffStorage_frame]; rfl)
  | appendBit b _ _ => exact .inl (by rw [appendBit_frame]; rfl)
  | endStream _ _ => exact .inl (by rw [endStream_frame]; rfl)
  | load f _ _ h => exact .inl (by rw [callLoad_frame h]; rfl)
  | _ => exact .inl rfl

theorem writeBoot_g2 (v : Byte) (s : State) : (writeBoot v s).g2 = s.g2 := by
  unfold writeBoot; split <;> rfl

theorem writeBoot_bootEnabled {v : Byte} {s : State} (h : s.g1.bootEnabled = false) :
    (writeBoot v s).g1.bootEnabled = false := by
  unfold writeBoot; split <;> [exact h; rfl]

theorem dma2Ok_of_dma_eq {s t : State} (h : t.g2.dma = s.g2.dma) (hs : Dma2Ok s) : Dma2Ok t := by
  unfold Dma2Ok chan
  rw [h]
  exact hs

theorem Move.dma2Ok {s t : State} (h : Move s t) (hs : Dma2Ok s) : Dma2Ok t := by
  obtain h | ⟨v, rfl⟩ | ⟨-, h⟩ := h.bootAndDma_cases
  · exact dma2Ok_of_dma_eq (Prod.ext_iff.1 h).2 hs
  · exact dma2Ok_of_dma_eq (by rw [writeBoot_g2]) hs
  · exact h hs

theorem Move.bootDisabled {s t : State} (h : Move s t) (hs : s.g1.bootEnabled = false) :
    t.g1.bootEnabled = false := by
  obtain h | ⟨v, rfl⟩ | ⟨h, -⟩ := h.bootAndDma_cases
  · exact (Prod.ext_iff.1 h).1.trans hs
  · exact writeBoot_bootEnabled hs
  · rw [h, hs]

/-! ### The statements -/

/-- Settles O9: every move on a channel leaves a unit to every channel it does not stop, and no store sets a
bit outside a cell's write mask. -/
theorem stepKeepsGen2DmaCells : Obligations.StepKeepsGen2DmaCells :=
  fun _ _ hs h => step_keeps (fun _ _ => Move.dma2Ok) (fun _ _ _ _ hs => hs) (fun _ hs => hs) h hs

/-- Settles O26: a write of 0xFF50 only disables the boot ROM, and no other move changes the switch. -/
theorem bootRomStaysDisabled : Obligations.BootRomStaysDisabled :=
  fun _ _ hs h => step_keeps (P := fun s => s.g1.bootEnabled = false) (fun _ _ => Move.bootDisabled)
    (fun _ _ _ _ hs => hs) (fun _ hs => hs) h hs

end Sys2Proof.Machine
end

section
/-! PROOFS. The faults a write can end in (60_exceptions.md R602), and that a read or write of the CPU ends
in `ProtocolViolation` exactly while the CPU is stalled (10_state.md R49, 41_bus.md R236). -/
namespace Sys2Proof.Machine

open Sys2Proof.Claims

/-! ### Generation 1: no write ends in a fault -/

theorem writeVdmaReg_ne_fault (a : Half) (v : Byte) (s : State) (f : Fault) :
    writeVdmaReg a v s ≠ .fault f := by
  intro h
  unfold writeVdmaReg hdma5 at h
  repeat' split at h
  all_goals cases h

theorem ioWrite1_ne_fault (a : Half) (v : Byte) (s : State) (f : Fault) : ioWrite1 a v s ≠ .fault f := by
  intro h
  unfold ioWrite1 ownedWrite at h
  split at h
  · repeat' split at h
    case isFalse.isFalse.isFalse.isFalse => exact writeVdmaReg_ne_fault a v s f h
    all_goals cases h
  · cases h

theorem writeRam_ne_fault (a : Half) (v : Byte) (s : State) (f : Fault) : writeRam a v s ≠ .fault f := by
  intro h
  unfold writeRam rtcWriteReg at h
  repeat' split at h
  all_goals cases h

theorem regionWrite1_ne_fault (b : Half) (v : Byte) (s : State) (f : Fault) :
    regionWrite1 b v s ≠ .fault f := by
  intro h
  unfold regionWrite1 at h
  repeat' split at h
  case isFalse.isFalse.isTrue => exact writeRam_ne_fault b v s f h
  case isFalse.isFalse.isFalse.isFalse.isFalse.isFalse.isTrue => exact ioWrite1_ne_fault b v s f h
  all_goals cases h

theorem write1_ne_fault (m : Master) (a : Half) (v : Byte) (s : State) (f : Fault) :
    write1 m a v s ≠ .fault f := by
  unfold write1
  split
  · exact nofun
  · exact regionWrite1_ne_fault _ v s f

/-! ### Generation 2: a write may end in the fault of a flash without a command -/

/-- A register write whose data stays inside its byte mask ends in no fault (40_register.md R204). -/
theorem Reg16.write_of_fits {r : Reg16} {d mask : Half} (h : d &&& ~~~mask = 0) :
    r.write d mask = .next { r with value := r.stored d mask } := by
  rw [Reg16.write, if_pos h]

theorem dmaCellWrite_ne_fault {k : Chan} {x : DmaCell} {d mask : Half} {s : State} {f : Fault}
    (hd : d &&& ~~~mask = 0) : dmaCellWrite k x d mask s ≠ .fault f := by
  intro h
  unfold dmaCellWrite dmaRegStore at h
  rw [Reg16.write_of_fits hd] at h
  split at h <;> cases h

theorem ioWrite2_ne_fault {u : Word} {d mask : Half} {s : State} {f : Fault} (hd : d &&& ~~~mask = 0) :
    ioWrite2 u d mask s ≠ .fault f := by
  unfold ioWrite2 dmaRegWrite
  split
  · exact dmaCellWrite_ne_fault hd
  · exact nofun

theorem cartWrite16_ne_fault {m : Master} {u : Word} {d mask : Half} {s : State} {f : Fault} :
    cartWrite16 m u d mask s ≠ .fault f := by
  intro h
  unfold cartWrite16 at h
  repeat' split at h
  all_goals cases h

/-- The data that a byte write gives a 16-bit device stays inside its byte mask (40_register.md R203). -/
theorem byteData_fits (a v : Word) : byteData a v &&& ~~~(byteMask a) = 0 := by
  unfold byteData byteMask
  generalize v.setWidth 8 = b
  split <;> (revert b; decide)

/-- A composed write ends in no fault where no halfword write of it does. -/
theorem compose16W_ne_fault {g : Word → Half → Half → State → Res State} {f : Fault}
    (hg : ∀ (u : Word) (d mask : Half) (s : State), d &&& ~~~mask = 0 → g u d mask s ≠ .fault f)
    (a : Word) (w : Width) (v : Word) (s : State) : compose16W g a w v s ≠ .fault f := by
  have full (d : Half) : d &&& ~~~(0xFFFF : Half) = 0 := by simp
  cases w with
  | b1 => exact hg _ _ _ s (byteData_fits a v)
  | b2 => exact hg _ _ _ s (full _)
  | b4 =>
    intro h
    obtain h | ⟨t, -, h⟩ := bindR_eq_fault.1 h
    · exact hg _ _ _ s (full _) h
    · exact hg _ _ _ t (full _) h

theorem flashWrite_fault {t : Timing} {o : Half} {v : Byte} {c : Flash} {f : Fault}
    (h : flashWrite t o v c = .fault f) : f = .flashInvariant := by
  unfold flashWrite flashCommand at h
  repeat' split at h
  all_goals cases h <;> rfl

theorem storageWrite_fault {a : Word} {w : Width} {v : Word} {s : State} {f : Fault}
    (h : storageWrite a w v s = .fault f) : f = .flashInvariant := by
  unfold storageWrite storageWriteByte at h
  split at h
  case h_4 =>
    obtain h | ⟨c, -, h⟩ := bindR_eq_fault.1 h
    · exact flashWrite_fault h
    · cases h
  all_goals cases h

theorem midWrite2_ne_fault (a : Word) (w : Width) (v : Word) (s : State) (f : Fault) :
    midWrite2 a w v s ≠ .fault f := by
  intro h
  unfold midWrite2 at h
  repeat' split at h
  case isTrue.isTrue => exact compose16W_ne_fault (fun _ _ _ _ => ioWrite2_ne_fault) _ w v s h
  all_goals cases h

/-- The one fault of a generation-2 write is the one of R385. -/
theorem write2_fault {m : Master} {a : Word} {w : Width} {v : Word} {s : State} {f : Fault}
    (h : write2 m a w v s = .fault f) : f = .flashInvariant := by
  unfold write2 at h
  split at h
  · cases h
  split at h
  · exact absurd h (midWrite2_ne_fault a w v s f)
  split at h
  · exact absurd h (compose16W_ne_fault (fun _ _ _ _ _ => cartWrite16_ne_fault) _ w v s)
  split at h
  · exact storageWrite_fault h
  · cases h

theorem busWrite_fault {m : Master} {a : Word} {w : Width} {v : Word} {s : State} {f : Fault}
    (h : busWrite m a w v s = .fault f) : f = .flashInvariant := by
  unfold busWrite at h
  split at h
  · exact absurd h (write1_ne_fault _ _ _ s f)
  · exact write2_fault h

/-! ### The stall -/

theorem cpuStalled_iff {s : State} : cpuStalled s = true ↔ Stalled s := by
  have active : anyActive s.g2.dma = true ↔ ∃ k, (chan s k).state = .active := by
    simp only [anyActive, Bool.or_eq_true, beq_iff_eq, chan]
    constructor
    · rintro (((h | h) | h) | h)
      exacts [⟨.c0, h⟩, ⟨.c1, h⟩, ⟨.c2, h⟩, ⟨.c3, h⟩]
    · rintro ⟨k, h⟩
      cases k <;> simp_all [Channels.get]
  unfold cpuStalled Stalled
  cases s.cfg.gen <;> simp [active]

theorem violates_iff {m : Master} {s : State} : violates m s = true ↔ m = .cpu ∧ Stalled s := by
  rw [violates, Bool.and_eq_true, beq_iff_eq, cpuStalled_iff]

theorem not_violates {m : Master} {s : State} (hm : m = .cpu → ¬ Stalled s) : ¬ violates m s = true :=
  fun h => hm (violates_iff.1 h).1 (violates_iff.1 h).2

theorem callRead_violation_iff {m : Master} {k : AccessKind} {a : Word} {w : Width} {s : State} :
    callRead m k a w s = .fault .protocolViolation ↔ m = .cpu ∧ Stalled s := by
  rw [← violates_iff]
  unfold callRead
  split
  · rename_i hv
    exact iff_of_true rfl hv
  · rename_i hv
    refine iff_of_false ?_ hv
    split <;> exact nofun

theorem callWrite_violation_iff {m : Master} {a : Word} {w : Width} {v : Word} {s : State} :
    callWrite m a w v s = .fault .protocolViolation ↔ m = .cpu ∧ Stalled s := by
  rw [← violates_iff]
  unfold callWrite
  split
  · rename_i hv
    exact iff_of_true rfl hv
  · rename_i hv
    refine iff_of_false ?_ hv
    split
    · exact nofun
    · exact fun h => absurd (busWrite_fault h) (by decide)

/-- Every read or write of the CPU is one `read` or one `write` of the bus by the CPU. -/
theorem exec_of_cpuAccess {i : Instr} (h : cpuAccess i = true) :
    (∃ k a w, ∀ s, exec i s = callRead .cpu k a w s) ∨ ∃ a w v, ∀ s, exec i s = callWrite .cpu a w v s := by
  cases i with
  | busRead8 m | busRead16 m | busRead32 m | eepromDrainRead m =>
    obtain rfl : m = .cpu := beq_iff_eq.1 h
    exact .inl ⟨_, _, _, fun _ => rfl⟩
  | busWrite8 m | busWrite16 m | busWrite32 m =>
    obtain rfl : m = .cpu := beq_iff_eq.1 h
    exact .inr ⟨_, _, _, fun _ => rfl⟩
  | storageSniff a w v =>
    cases v with
    | none => exact .inl ⟨_, _, _, fun _ => rfl⟩
    | some v => exact .inr ⟨_, _, _, fun _ => rfl⟩
  | tick | triggerVblank | triggerHblank | triggerFifoa | triggerFifob | loadGen1 | serializeGen1 | loadGen2
  | serializeGen2 | eepromBitWrite | eepromSniff | eepromRead6 | eepromRead14 | eepromWrite6
  | eepromWrite14 => cases h
  | _ => first
    | exact .inl ⟨_, _, _, fun _ => rfl⟩
    | exact .inr ⟨_, _, _, fun _ => rfl⟩

theorem exec_violation_iff {i : Instr} {s : State} (h : cpuAccess i = true) :
    exec i s = .fault .protocolViolation ↔ Stalled s := by
  obtain ⟨k, a, w, he⟩ | ⟨a, w, v, he⟩ := exec_of_cpuAccess h
  · rw [he, callRead_violation_iff]; simp
  · rw [he, callWrite_violation_iff]; simp

/-! ### Widths -/

section
variable {m : Master} {a : Word} {w : Width} {s : State} (g : s.cfg.gen = .gen1)
  (hw : w ≠ .b1) (hm : m = .cpu → ¬ Stalled s)
include g hw

theorem accessRefusal_wide : accessRefusal m a w s = some .widthGen1 := by
  unfold accessRefusal
  rw [g]
  simp only [if_pos hw]

include hm

theorem callRead_wide (k : AccessKind) : callRead m k a w s = .refused .widthGen1 := by
  unfold callRead
  rw [if_neg (not_violates hm), accessRefusal_wide g hw]

theorem callWrite_wide (v : Word) : callWrite m a w v s = .refused .widthGen1 := by
  unfold callWrite
  rw [if_neg (not_violates hm), accessRefusal_wide g hw]

end

/-! ### The statement -/

/-- Settles O16: an access of the CPU is one bus call, which looks at the stall before the width, and no
write ends in that fault otherwise. -/
theorem stallFaultsThenWidthRefuses : Obligations.StallFaultsThenWidthRefuses :=
  ⟨fun _ _ => exec_violation_iff, fun _ _ k _ _ _ g hm =>
    ⟨callRead_wide g (by decide) hm k, callRead_wide g (by decide) hm k,
     callWrite_wide g (by decide) hm _, callWrite_wide g (by decide) hm _⟩⟩

end Sys2Proof.Machine
end

section
/-! PROOFS. Every array of the state stays in its canonical form (log 3; 10_state.md sections 2 and 3). -/
namespace Sys2Proof.Machine

open Sys2Proof.Safety

/-! ### The canonical form, by array -/

theorem drawn_wf (size tag : Nat) : (drawn size tag).wf = true := by
  simp [Image.wf_iff, drawn]

/-- The array of a storage variant is in its canonical form. -/
def Nvs2.canonical (n : Nvs2) : Prop := ∀ m ∈ n.images, m.wf = true

@[simp] theorem Nvs2.canonical_unresolved : Nvs2.canonical .unresolved := nofun

@[simp] theorem Nvs2.canonical_batteryRam {m : Image} :
    (Nvs2.batteryRam m).canonical ↔ m.wf = true := by
  simp [Nvs2.canonical, Nvs2.images]

@[simp] theorem Nvs2.canonical_eeprom {e : Eeprom} : (Nvs2.eeprom e).canonical ↔ e.bytes.wf = true := by
  simp [Nvs2.canonical, Nvs2.images]

@[simp] theorem Nvs2.canonical_flash {f : Flash} : (Nvs2.flash f).canonical ↔ f.bytes.wf = true := by
  simp [Nvs2.canonical, Nvs2.images]

theorem memoryOk_iff {s : State} : MemoryOk s ↔
    (s.g1.vram.wf = true ∧ s.g1.wram.wf = true ∧ s.g1.oam.wf = true ∧ s.g1.hram.wf = true
      ∧ ∀ n, s.g1.nvs1 = some n → n.bytes.wf = true)
    ∧ s.g2.ewram.wf = true ∧ s.g2.iwram.wf = true ∧ s.g2.pal.wf = true ∧ s.g2.vram2.wf = true
      ∧ s.g2.oam2.wf = true ∧ s.g2.nvs2.canonical := by
  cases h : s.g1.nvs1 <;>
    simp [MemoryOk, Memory.wf, Gen1.images, Gen2.images, Nvs2.canonical, h, and_assoc]

/-- Every array of the block. -/
def arrays (s : State) : List Image × List Image := (s.g1.images, s.g2.images)

theorem memoryOk_of_arrays_eq {s t : State} (h : arrays t = arrays s) (hs : MemoryOk s) : MemoryOk t := by
  obtain ⟨h1, h2⟩ := Prod.mk.injEq .. ▸ h
  rw [MemoryOk, Memory.wf, h1, h2]
  exact hs

/-! ### One array replaced -/

section
variable {s : State} (hs : MemoryOk s) {m : Image} (hm : m.wf = true)
include hs hm

theorem memoryOk_vram : MemoryOk { s with g1.vram := m } := by
  obtain ⟨⟨-, w, o, h, n⟩, r⟩ := memoryOk_iff.1 hs
  exact memoryOk_iff.2 ⟨⟨hm, w, o, h, n⟩, r⟩

theorem memoryOk_wram : MemoryOk { s with g1.wram := m } := by
  obtain ⟨⟨v, -, o, h, n⟩, r⟩ := memoryOk_iff.1 hs
  exact memoryOk_iff.2 ⟨⟨v, hm, o, h, n⟩, r⟩

theorem memoryOk_oam : MemoryOk { s with g1.oam := m } := by
  obtain ⟨⟨v, w, -, h, n⟩, r⟩ := memoryOk_iff.1 hs
  exact memoryOk_iff.2 ⟨⟨v, w, hm, h, n⟩, r⟩

theorem memoryOk_hram : MemoryOk { s with g1.hram := m } := by
  obtain ⟨⟨v, w, o, -, n⟩, r⟩ := memoryOk_iff.1 hs
  exact memoryOk_iff.2 ⟨⟨v, w, o, hm, n⟩, r⟩

theorem memoryOk_setNvs1Bytes : MemoryOk (setNvs1Bytes m s) := by
  obtain ⟨⟨v, w, o, h, -⟩, r⟩ := memoryOk_iff.1 hs
  refine memoryOk_iff.2 ⟨⟨v, w, o, h, fun n hn => ?_⟩, r⟩
  obtain ⟨x, -, rfl⟩ := Option.map_eq_some_iff.1 hn
  exact hm

theorem memoryOk_ewram : MemoryOk { s with g2.ewram := m } := by
  obtain ⟨r, -, i, p, v, o, n⟩ := memoryOk_iff.1 hs
  exact memoryOk_iff.2 ⟨r, hm, i, p, v, o, n⟩

theorem memoryOk_iwram : MemoryOk { s with g2.iwram := m } := by
  obtain ⟨r, e, -, p, v, o, n⟩ := memoryOk_iff.1 hs
  exact memoryOk_iff.2 ⟨r, e, hm, p, v, o, n⟩

theorem memoryOk_pal : MemoryOk { s with g2.pal := m } := by
  obtain ⟨r, e, i, -, v, o, n⟩ := memoryOk_iff.1 hs
  exact memoryOk_iff.2 ⟨r, e, i, hm, v, o, n⟩

theorem memoryOk_vram2 : MemoryOk { s with g2.vram2 := m } := by
  obtain ⟨r, e, i, p, -, o, n⟩ := memoryOk_iff.1 hs
  exact memoryOk_iff.2 ⟨r, e, i, p, hm, o, n⟩

theorem memoryOk_oam2 : MemoryOk { s with g2.oam2 := m } := by
  obtain ⟨r, e, i, p, v, -, n⟩ := memoryOk_iff.1 hs
  exact memoryOk_iff.2 ⟨r, e, i, p, v, hm, n⟩

end

theorem memoryOk_setNvs2 {s : State} {n : Nvs2} (hs : MemoryOk s) (hn : n.canonical) :
    MemoryOk (setNvs2 n s) := by
  obtain ⟨r, e, i, p, v, o, -⟩ := memoryOk_iff.1 hs
  exact memoryOk_iff.2 ⟨r, e, i, p, v, o, hn⟩

theorem nvs2_canonical {s : State} (hs : MemoryOk s) : s.g2.nvs2.canonical := by
  obtain ⟨-, -, -, -, -, -, hn⟩ := memoryOk_iff.1 hs
  exact hn

/-! ### Operations of generation 1 -/

theorem memoryOk_writeNvs1 (o : Nat) (v : Byte) {s : State} (hs : MemoryOk s) :
    MemoryOk (writeNvs1 o v s) := by
  obtain ⟨⟨vr, wr, oa, hr, hn⟩, r⟩ := memoryOk_iff.1 hs
  unfold writeNvs1
  split
  · exact hs
  · rename_i n h
    refine memoryOk_iff.2 ⟨⟨vr, wr, oa, hr, ?_⟩, r⟩
    rintro _ ⟨⟩
    exact Image.write_wf (hn n h) _ _

theorem memoryOk_oamNext {s : State} (hs : MemoryOk s) : MemoryOk (oamNext s) := by
  rw [oamNext_frame]
  exact hs

theorem memoryOk_oamStore (b : Byte) {s : State} (hs : MemoryOk s) : MemoryOk (oamStore b s) := by
  obtain ⟨⟨-, -, ho, -⟩, -⟩ := memoryOk_iff.1 hs
  exact memoryOk_oam hs (Image.write_wf ho _ _)

theorem memoryOk_writeVram (i : Nat) (v : Byte) {s : State} (hs : MemoryOk s) :
    MemoryOk (writeVram i v s) := by
  obtain ⟨⟨hv, -⟩, -⟩ := memoryOk_iff.1 hs
  exact memoryOk_vram hs (Image.write_wf hv _ _)

/-! ### Operations of generation 2 -/

theorem storeTwice_wf {m : Image} (h : m.wf = true) (o : Nat) (v : Byte) : (storeTwice m o v).wf = true :=
  Image.write_wf (Image.write_wf h _ _) _ _

theorem memoryOk_writePal (a : Word) (w : Width) (v : Word) {s : State} (hs : MemoryOk s) :
    MemoryOk (writePal a w v s) := by
  obtain ⟨-, -, -, hp, -⟩ := memoryOk_iff.1 hs
  cases w with
  | b1 => exact memoryOk_pal hs (storeTwice_wf hp _ _)
  | b2 | b4 => exact memoryOk_pal hs (storeLE_wf hp _ _ _)

theorem memoryOk_writeVram2 (a : Word) (w : Width) (v : Word) {s : State} (hs : MemoryOk s) :
    MemoryOk (writeVram2 a w v s) := by
  obtain ⟨-, -, -, -, hv, -⟩ := memoryOk_iff.1 hs
  cases w with
  | b1 =>
    simp only [writeVram2]
    split
    · exact memoryOk_vram2 hs (storeTwice_wf hv _ _)
    · exact hs
  | b2 | b4 => exact memoryOk_vram2 hs (storeLE_wf hv _ _ _)

theorem memoryOk_writeOam2 (a : Word) (w : Width) (v : Word) {s : State} (hs : MemoryOk s) :
    MemoryOk (writeOam2 a w v s) := by
  obtain ⟨-, -, -, -, -, ho, -⟩ := memoryOk_iff.1 hs
  cases w with
  | b1 => exact hs
  | b2 | b4 => exact memoryOk_oam2 hs (storeLE_wf ho _ _ _)

/-! ### Storage of generation 2 -/

theorem flashNotStarted_bytes (o : Half) (v : Byte) (f : Flash) :
    (flashNotStarted o v f).bytes = f.bytes := by
  unfold flashNotStarted; split <;> rfl

theorem flashStarting_bytes (o : Half) (v : Byte) (f : Flash) : (flashStarting o v f).bytes = f.bytes := by
  unfold flashStarting; split <;> rfl

theorem flashReady_bytes (t : Timing) (o : Half) (v : Byte) (f : Flash) :
    (flashReady t o v f).bytes = f.bytes := by
  unfold flashReady
  repeat' split
  all_goals rfl

theorem flashCommand_bytes {t : Timing} {o : Half} {v : Byte} {f f' : Flash}
    (h : flashCommand t o v f = .next f') : f'.bytes = f.bytes := by
  unfold flashCommand at h
  repeat' split at h
  all_goals cases h <;> rfl

/-- A write to a flash puts a program or an erase in flight; it stores nothing itself (44_storage_flash.md
R377, R388). -/
theorem flashWrite_bytes {t : Timing} {o : Half} {v : Byte} {f f' : Flash}
    (h : flashWrite t o v f = .next f') : f'.bytes = f.bytes := by
  unfold flashWrite at h
  split at h
  · cases h; rfl
  split at h
  · cases h; exact flashNotStarted_bytes o v f
  · cases h; exact flashStarting_bytes o v f
  · cases h; exact flashReady_bytes t o v f
  · exact flashCommand_bytes h

theorem memoryOk_storageWriteByte {o : Half} {v : Byte} {s t : State}
    (h : storageWriteByte o v s = .next t) (hs : MemoryOk s) : MemoryOk t := by
  have hn := nvs2_canonical hs
  unfold storageWriteByte at h
  split at h
  case h_1 => cases h; exact hs
  case h_2 m e =>
    cases h
    rw [e, Nvs2.canonical_batteryRam] at hn
    exact memoryOk_setNvs2 hs (Nvs2.canonical_batteryRam.2 (Image.write_wf hn _ _))
  case h_3 => cases h; exact hs
  case h_4 f e =>
    obtain ⟨f', hf, ht⟩ := bindR_eq_next.1 h
    cases ht
    rw [e, Nvs2.canonical_flash, ← flashWrite_bytes hf] at hn
    exact memoryOk_setNvs2 hs (Nvs2.canonical_flash.2 hn)

theorem memoryOk_sniffStorage (o : Half) (v : Byte) {s : State} (hs : MemoryOk s) :
    MemoryOk (sniffStorage o v s) := by
  unfold sniffStorage
  split
  · exact memoryOk_setNvs2 hs (Nvs2.canonical_flash.2 (Image.filled_wf _ _))
  · exact (memoryOk_setNvs2 hs (Nvs2.canonical_batteryRam.2 (drawn_wf _ _)) :)

theorem drain_bytes (e : Eeprom) : (drain e).2.bytes = e.bytes := by
  unfold drain; split <;> rfl

theorem memoryOk_drain {e : Eeprom} {s : State} (he : s.g2.nvs2 = .eeprom e) (hs : MemoryOk s) :
    MemoryOk (setNvs2 (.eeprom (drain e).2) s) := by
  have hn := nvs2_canonical hs
  rw [he, Nvs2.canonical_eeprom, ← drain_bytes] at hn
  exact memoryOk_setNvs2 hs (Nvs2.canonical_eeprom.2 hn)

theorem memoryOk_appendBit (b : Bool) {s : State} (hs : MemoryOk s) : MemoryOk (appendBit b s) := by
  have hn := nvs2_canonical hs
  unfold appendBit
  split
  · rename_i e he
    rw [he, Nvs2.canonical_eeprom] at hn
    exact memoryOk_setNvs2 hs (Nvs2.canonical_eeprom.2 hn)
  · exact hs

/-- The freeze of the address length cuts the array or leaves it (43_storage_battery_eeprom.md R334). -/
theorem freeze_wf {e e' : Eeprom} {c : EepromCommand} (h : freeze e c = some e') (he : e.bytes.wf = true) :
    e'.bytes.wf = true := by
  unfold freeze at h
  split at h
  · cases h
    simp only
    split
    · exact Image.cut_wf he 512
    · exact he
  · split at h
    · cases h; exact he
    · cases h

theorem memoryOk_runCommand (c : EepromCommand) {e : Eeprom} {s : State} (he : e.bytes.wf = true)
    (hs : MemoryOk s) : MemoryOk (runCommand c e s) := by
  unfold runCommand
  split
  · exact memoryOk_setNvs2 hs (Nvs2.canonical_eeprom.2 he)
  · split
    · exact memoryOk_setNvs2 hs (Nvs2.canonical_eeprom.2 he)
    · exact memoryOk_setNvs2 hs (Nvs2.canonical_eeprom.2 he)

theorem memoryOk_runStream (l : List Bool) {e : Eeprom} {s : State} (he : e.bytes.wf = true)
    (hs : MemoryOk s) : MemoryOk (runStream l e s) := by
  unfold runStream
  split
  · exact memoryOk_setNvs2 hs (Nvs2.canonical_eeprom.2 he)
  · split
    · exact memoryOk_setNvs2 hs (Nvs2.canonical_eeprom.2 he)
    · rename_i h
      exact memoryOk_runCommand _ (freeze_wf h he) hs

theorem memoryOk_endStream {s : State} (hs : MemoryOk s) : MemoryOk (endStream s) := by
  have hn := nvs2_canonical hs
  unfold endStream
  split
  · rename_i e he
    rw [he, Nvs2.canonical_eeprom] at hn
    exact memoryOk_runStream _ hn hs
  · exact hs

theorem eepromTick_wf {e : Eeprom} (he : e.bytes.wf = true) : (eepromTick e).bytes.wf = true := by
  unfold eepromTick
  split
  · exact he
  · split
    · unfold completeWrite
      dsimp only
      split
      · exact storeEepromWord_wf he _ _
      · exact he
    · exact he

theorem flashAction_wf (a : FlashAction) {m : Image} (hm : m.wf = true) : (flashAction a m).wf = true := by
  cases a with
  | program p v => exact Image.write_wf hm p v
  | eraseChip => exact Image.setRange_wf hm _ _ _
  | eraseSector p => exact Image.setRange_wf hm _ _ _

theorem flashTick_wf {f : Flash} (hf : f.bytes.wf = true) : (flashTick f).bytes.wf = true := by
  unfold flashTick
  split
  · exact hf
  · split
    · exact flashAction_wf _ hf
    · exact hf

theorem memoryOk_storageTick1 {s : State} (hs : MemoryOk s) : MemoryOk (storageTick1 s) := by
  refine memoryOk_setNvs2 hs ?_
  have hn := nvs2_canonical hs
  cases h : s.g2.nvs2 with
  | unresolved => exact Nvs2.canonical_unresolved
  | batteryRam m => rwa [h] at hn
  | eeprom e =>
    rw [h, Nvs2.canonical_eeprom] at hn
    exact Nvs2.canonical_eeprom.2 (eepromTick_wf hn)
  | flash f =>
    rw [h, Nvs2.canonical_flash] at hn
    exact Nvs2.canonical_flash.2 (flashTick_wf hn)

/-! ### The end of a DMA unit -/

theorem memoryOk_streamBoundary (k : Chan) {s : State} (hs : MemoryOk s) :
    MemoryOk (streamBoundary k s) := by
  unfold streamBoundary
  split
  · exact memoryOk_endStream hs
  · exact hs

theorem memoryOk_requestIfIrq (k : Chan) {s : State} (hs : MemoryOk s) : MemoryOk (requestIfIrq k s) := by
  unfold requestIfIrq; split <;> exact hs

theorem memoryOk_afterUnit (k : Chan) {s : State} (hs : MemoryOk s) : MemoryOk (afterUnit k s) := by
  unfold afterUnit
  split
  · exact memoryOk_requestIfIrq k (memoryOk_streamBoundary k hs)
  · split
    · exact memoryOk_streamBoundary k hs
    · exact hs

theorem memoryOk_rearm (k : Chan) {s : State} (hs : MemoryOk s) : MemoryOk (rearm k s) := by
  unfold rearm; split <;> exact hs

/-! ### `load` -/

theorem memoryOk_loadBytes1 {l : List Byte} {s t : State} (h : loadBytes1 l s = .next t)
    (hs : MemoryOk s) : MemoryOk t := by
  unfold loadBytes1 loadTrailer at h
  split at h
  · cases h
    exact memoryOk_setNvs1Bytes hs (Image.ofBytes_wf _)
  split at h
  · split at h
    · cases h
      exact memoryOk_setNvs1Bytes hs (Image.ofBytes_wf _)
    · cases h
  · cases h

theorem memoryOk_load1 {f : SaveFile} {s t : State} (h : load1 f s = .next t) (hs : MemoryOk s) :
    MemoryOk t := by
  unfold load1 at h
  split at h
  · cases f <;> cases h
    exact hs
  · cases f with
    | absent => cases h; exact memoryOk_setNvs1Bytes hs (drawn_wf _ _)
    | bytes l => exact memoryOk_loadBytes1 h hs
    | unreadable => cases h

theorem freshBytes_wf (v : SaveVariant) (tag : Nat) : (freshBytes v tag).wf = true := by
  cases v with
  | batteryRam => exact drawn_wf _ _
  | eeprom6 | eeprom14 | flash64 | flash128 => exact Image.filled_wf _ _

theorem variantOf_canonical (c : Config) (v : SaveVariant) {m : Image} (hm : m.wf = true) :
    (variantOf c v m).canonical := by
  cases v with
  | batteryRam => exact Nvs2.canonical_batteryRam.2 hm
  | eeprom6 | eeprom14 => exact Nvs2.canonical_eeprom.2 hm
  | flash64 | flash128 => exact Nvs2.canonical_flash.2 hm

theorem memoryOk_load2 {f : SaveFile} {s t : State} (h : load2 f s = .next t) (hs : MemoryOk s) :
    MemoryOk t := by
  cases f with
  | absent =>
    cases h
    unfold loadNoFile2
    split
    · exact memoryOk_setNvs2 hs Nvs2.canonical_unresolved
    · exact (memoryOk_setNvs2 hs (variantOf_canonical _ _ (freshBytes_wf _ _)) :)
  | bytes l =>
    simp only [load2, loadBytes2] at h
    split at h
    · cases h
    · cases h; exact memoryOk_setNvs2 hs (variantOf_canonical _ _ (Image.ofBytes_wf _))
  | unreadable => cases h

theorem memoryOk_callLoad {f : SaveFile} {s t : State} (h : callLoad f s = .next t) (hs : MemoryOk s) :
    MemoryOk t := by
  unfold callLoad at h
  repeat' split at h
  · cases h
  · exact memoryOk_load1 h hs
  · exact memoryOk_load2 h hs

/-! ### Every move -/

/-- A move stores in one array, or changes the array of the storage device as its rules say, or leaves every
array alone. -/
theorem Move.memoryOk {s t : State} (h : Move s t) (hs : MemoryOk s) : MemoryOk t := by
  have keep (ha : arrays t = arrays s) : MemoryOk t := memoryOk_of_arrays_eq ha hs
  obtain ⟨⟨-, wram, oam, hram, -⟩, ewram, iwram, -⟩ := memoryOk_iff.1 hs
  cases h with
  | nvs1 o v _ _ => exact memoryOk_writeNvs1 o v hs
  | vram i v _ _ => exact memoryOk_writeVram i v hs
  | wram i v _ _ => exact memoryOk_wram hs (Image.write_wf wram i v)
  | oam i v _ _ => exact memoryOk_oam hs (Image.write_wf oam i v)
  | hram i v _ _ => exact memoryOk_hram hs (Image.write_wf hram i v)
  | oamUnit b _ _ _ => exact memoryOk_oamNext (memoryOk_oamStore b hs)
  | vdmaStore b _ _ _ => exact memoryOk_writeVram _ b hs
  | ewram o w v _ _ => exact memoryOk_ewram hs (storeLE_wf ewram o w v)
  | iwram o w v _ _ => exact memoryOk_iwram hs (storeLE_wf iwram o w v)
  | pal a w v _ _ => exact memoryOk_writePal a w v hs
  | vram2 a w v _ _ => exact memoryOk_writeVram2 a w v hs
  | oam2 a w v _ _ => exact memoryOk_writeOam2 a w v hs
  | storage o v _ _ _ h => exact memoryOk_storageWriteByte h hs
  | sniffStorage o v _ _ _ => exact memoryOk_sniffStorage o v hs
  | sniffEeprom _ _ _ => exact memoryOk_setNvs2 hs (Nvs2.canonical_eeprom.2 (Image.filled_wf _ _))
  | drain e _ _ he => exact memoryOk_drain he hs
  | appendBit b _ _ => exact memoryOk_appendBit b hs
  | endStream _ _ => exact memoryOk_endStream hs
  | storageTick _ _ => exact memoryOk_storageTick1 hs
  | unitEnd k c₀ _ _ => exact memoryOk_afterUnit k hs
  | load f _ _ h => exact memoryOk_callLoad h hs
  | control a v _ _ => exact keep (by rw [writeControl_frame]; rfl)
  | dmaReg v _ _ => exact keep (by rw [writeDma_frame]; rfl)
  | vbk v _ _ => exact keep (by rw [writeVbk_frame]; rfl)
  | svbk v _ _ => exact keep (by rw [writeSvbk_frame]; rfl)
  | boot v _ _ => exact keep (by unfold writeBoot; split <;> rfl)
  | vdmaReg a v _ _ _ h => exact keep (by rw [writeVdmaReg_frame h]; rfl)
  | hblank _ _ => exact keep (by rw [vdmaHBlank_frame]; rfl)
  | normalize _ _ => exact keep (by rw [normalizedFor_frame]; rfl)
  | rearm k _ _ => exact memoryOk_rearm k hs
  | _ => exact keep rfl

/-! ### The statement -/

/-- Settles O5: every move keeps the canonical form, and a call begins and ends without touching an array. -/
theorem stepKeepsMemoryCanonical : Obligations.StepKeepsMemoryCanonical :=
  fun _ _ hs h => step_keeps (fun _ _ => Move.memoryOk) (fun _ _ _ _ hs => hs) (fun _ hs => hs) h hs

end Sys2Proof.Machine
end

section
/-! PROOFS. The accesses of the statements as bus calls: the `BUS_READ` and `BUS_WRITE` rows, the calls that
are let through (41_bus.md R220, R223, R236), the aligned address of a width (20_memory.md R112), and the
bytes that consecutive stores leave. -/
namespace Sys2Proof.Machine

open Sys2Proof.Claims

/-! ### The rows -/

theorem exec_readRow (w : Width) (m : Master) (k : AccessKind) (a : Word) (s : State) :
    exec (readRow w m k a) s = callRead m k a w s := by
  cases w <;> rfl

theorem exec_writeRow (w : Width) (m : Master) (a v : Word) (s : State) :
    exec (writeRow w m a v) s = callWrite m a w (w.cut v) s := by
  cases w <;> rfl

theorem exec_busRead8 (m : Master) (k : AccessKind) (a : Word) (s : State) :
    exec (.busRead8 m k a) s = callRead m k a .b1 s := rfl

theorem exec_busWrite8 (m : Master) (a : Word) (v : Byte) (s : State) :
    exec (.busWrite8 m a v) s = callWrite m a .b1 (v.setWidth 32) s := rfl

theorem cpuStalled_of_not {s : State} (h : ¬ Stalled s) : cpuStalled s = false :=
  Bool.eq_false_iff.2 fun hs => h (cpuStalled_iff.1 hs)

/-! ### Calls that are let through -/

theorem callRead_open2 {s : State} {m : Master} (h : Open2By s m) (k : AccessKind) (a : Word) (w : Width) :
    callRead m k a w s = .next (returning (read2 m k a w s)) := by
  obtain ⟨g, -, ⟨rfl, hs⟩ | ⟨c, rfl⟩⟩ := h
  · exact cpuRead_gen2 g (cpuStalled_of_not hs)
  · exact chanRead_gen2 g

theorem callWrite_open2 {s : State} {m : Master} (h : Open2By s m) (a : Word) (w : Width) (v : Word) :
    callWrite m a w v s = write2 m a w v s := by
  obtain ⟨g, -, ⟨rfl, hs⟩ | ⟨c, rfl⟩⟩ := h
  · exact cpuWrite_gen2 g (cpuStalled_of_not hs)
  · exact chanWrite_gen2 g

/-- A read that goes on is the read of the bus, its value returned. -/
theorem callRead_eq_next {m : Master} {k : AccessKind} {a : Word} {w : Width} {s t : State}
    (h : callRead m k a w s = .next t) : t = returning (busRead m k a w s) := by
  unfold callRead at h
  repeat' split at h
  all_goals cases h <;> rfl

/-! ### The aligned address -/

/-- Bits 31 to `n` of a word. -/
theorem and_clearLow {a m : Word} {n : Nat} (hm : ∀ i < 32, m.getLsbD i = decide (n ≤ i)) :
    (a &&& m).toNat = a.toNat / 2 ^ n * 2 ^ n := by
  have : a &&& m = (a >>> n) <<< n := by
    apply BitVec.eq_of_getLsbD_eq
    intro i hi
    rw [BitVec.getLsbD_and, hm i hi]
    by_cases hn : n ≤ i <;> simp [hn, hi, Nat.lt_of_not_le]
  rw [this, BitVec.toNat_shiftLeft, BitVec.toNat_ushiftRight, Nat.shiftLeft_eq, Nat.shiftRight_eq_div_pow]
  exact Nat.mod_eq_of_lt (Nat.lt_of_le_of_lt (Nat.div_mul_le_self _ _) a.isLt)

theorem align_toNat (w : Width) (a : Word) : (align w a).toNat = aligned w a.toNat := by
  cases w with
  | b1 => simp [align, aligned, Width.bytes]
  | b2 => exact and_clearLow (n := 1) (by decide)
  | b4 => exact and_clearLow (n := 2) (by decide)

/-- An address and its aligned address lie in one word. -/
theorem aligned_div4 (w : Width) (a : Nat) : aligned w a / 4 = a / 4 := by
  cases w <;> simp only [aligned, Width.bytes] <;> omega

theorem align_div4 (w : Width) (a : Word) : (align w a).toNat / 4 = a.toNat / 4 := by
  rw [align_toNat, aligned_div4]

/-- The upper halfword of a word lies in the word. -/
theorem align_b4_add2_div4 (a : Word) : (align .b4 a + 2).toNat / 4 = a.toNat / 4 := by
  have h := align_toNat .b4 a
  simp only [aligned, Width.bytes] at h
  have := a.isLt
  bv_omega

theorem align_b4_add2_toNat (a : Word) : (align .b4 a + 2).toNat = aligned .b4 a.toNat + 2 := by
  have h := align_toNat .b4 a
  simp only [aligned, Width.bytes] at h ⊢
  have := a.isLt
  bv_omega

/-- A mask of the low `n` bits as an index. -/
theorem maskAddr_eq_mod {a m : Word} (n : Nat) (hm : m.toNat = 2 ^ n - 1) :
    maskAddr a m = a.toNat % 2 ^ n := by
  rw [maskAddr, BitVec.toNat_and, hm, Nat.and_two_pow_sub_one_eq_mod]

/-! ### Bytes and halfwords put together -/

theorem toNat_append_byte {n : Nat} (x : BitVec n) (y : Byte) :
    (x ++ y).toNat = y.toNat + 256 * x.toNat := by
  rw [BitVec.toNat_append, ← Nat.shiftLeft_add_eq_or_of_lt y.isLt, Nat.shiftLeft_eq]
  omega

/-- Two halfwords put together, the low one second. -/
theorem append_eq_ofNat (h l : Half) : (h ++ l : Word) = BitVec.ofNat 32 (l.toNat + 65536 * h.toNat) := by
  have := h.isLt
  have := l.isLt
  apply BitVec.eq_of_toNat_eq
  rw [BitVec.toNat_append, ← Nat.shiftLeft_add_eq_or_of_lt l.isLt, Nat.shiftLeft_eq, BitVec.toNat_ofNat]
  omega

/-! ### Stores -/

theorem storedAt_zero (m : Image) (o : Nat) (f : Nat → Byte) : StoredAt m m o 0 f :=
  ⟨nofun, fun _ _ => rfl⟩

/-- One byte more, stored after the last. -/
theorem storedAt_succ {m m' : Image} {o n : Nat} {f : Nat → Byte} (h : StoredAt m m' o n f)
    (hm : m'.wf = true) (hs : o + n < m'.size) : StoredAt m (m'.write (o + n) (f n)) o (n + 1) f := by
  obtain ⟨hin, hout⟩ := h
  refine ⟨fun i hi => ?_, fun x hx => ?_⟩
  · rcases Nat.lt_succ_iff_lt_or_eq.1 hi with hi | rfl
    · rw [Image.read_write_other hm (by omega), hin i hi]
    · exact Image.read_write_same hm hs _
  · rw [Image.read_write_other hm (hx n (Nat.lt_succ_self n)), hout x fun i hi => hx i (Nat.lt_succ_of_lt hi)]

section
variable {m : Image} (hm : m.wf = true) {o : Nat}
include hm

theorem storedAt_one (f : Nat → Byte) (ho : o + 1 ≤ m.size) : StoredAt m (m.write o (f 0)) o 1 f :=
  storedAt_succ (storedAt_zero m o f) hm ho

theorem storedAt_two (f : Nat → Byte) (ho : o + 2 ≤ m.size) :
    StoredAt m ((m.write o (f 0)).write (o + 1) (f 1)) o 2 f :=
  storedAt_succ (storedAt_one hm f (by omega)) (Image.write_wf hm _ _) (by simp; omega)

theorem storedAt_four (f : Nat → Byte) (ho : o + 4 ≤ m.size) :
    StoredAt m ((((m.write o (f 0)).write (o + 1) (f 1)).write (o + 2) (f 2)).write (o + 3) (f 3)) o 4 f := by
  have wf2 := Image.write_wf (Image.write_wf hm o (f 0)) (o + 1) (f 1)
  refine storedAt_succ (storedAt_succ (storedAt_two hm f (by omega)) wf2 ?_) (Image.write_wf wf2 _ _) ?_
  · simp; omega
  · simp; omega

end

end Sys2Proof.Machine
end

section
/-! PROOFS. What a read leaves alone (20_memory.md R125): it sends accesses to `io_ext` and counts draws, or
fills the boot-ROM latch (60_exceptions.md R620), or takes staged bits from the Eeprom
(43_storage_battery_eeprom.md R339, R340). -/
namespace Sys2Proof.Machine

open Sys2Proof.Claims

/-! ### The EEPROM window -/

theorem inEepromWindow_iff {s : State} {u : Word} : inEepromWindow s.cfg u = true ↔ InWindow s u.toNat := by
  have hp := page_toNat u
  unfold inEepromWindow InWindow
  split
  · rw [beq_iff_eq]
    constructor
    · intro h
      rw [h] at hp
      change 13 = _ at hp
      omega
    · intro h
      bv_omega
  · rw [decide_eq_true_eq]
    constructor <;> (intro h; bv_omega)

/-- The window begins and ends at multiples of 4, so a word is in it whole or not at all. -/
theorem inWindow_of_same_word {s : State} {u a : Nat} (h : u / 4 = a / 4) : InWindow s u ↔ InWindow s a := by
  unfold InWindow
  split <;> omega

theorem readsEeprom_of_same_word {s : State} {u a : Nat} (h : u / 4 = a / 4) :
    ReadsEeprom s u ↔ ReadsEeprom s a := by
  rw [ReadsEeprom, ReadsEeprom, inWindow_of_same_word h]

theorem cartRead16_rom {s : State} {u : Word} (h : ¬ ReadsEeprom s u.toNat) :
    cartRead16 u s = (romHalf s.cfg u, s) := by
  unfold cartRead16
  split
  · rename_i e he
    rw [if_neg fun hw => h ⟨inEepromWindow_iff.1 hw, e, he⟩]
  · rfl

theorem cartRead16_eeprom {s : State} {u : Word} {e : Eeprom} (he : s.g2.nvs2 = .eeprom e)
    (h : InWindow s u.toNat) :
    cartRead16 u s = ((drain e).1, setNvs2 (.eeprom { e with staged := e.staged.drop 1 }) s) := by
  have hd : (drain e).2 = { e with staged := e.staged.drop 1 } := by
    cases e with
    | mk _ _ _ staged => cases staged <;> rfl
  unfold cartRead16
  rw [he]
  simp only [inEepromWindow_iff.2 h, if_true, hd]

/-! ### What every read keeps -/

/-- `t` is `s` after accesses sent to `io_ext` and draws counted. -/
def Sent (s t : State) : Prop :=
  ∃ o d, (∀ e ∈ o, ∀ k, e ≠ OutEvent.interrupt k) ∧ t = { s with outs := s.outs ++ o, draws := d }

theorem Sent.refl (s : State) : Sent s s := ⟨[], s.draws, nofun, by simp⟩

theorem Sent.trans {s t u : State} (h : Sent s t) (h' : Sent t u) : Sent s u := by
  obtain ⟨o, d, ho, rfl⟩ := h
  obtain ⟨o', d', ho', rfl⟩ := h'
  refine ⟨o ++ o', d', fun e he => ?_, by simp⟩
  exact (List.mem_append.1 he).elim (ho e) (ho' e)

theorem Sent.draw (s : State) : Sent s (drawWord s).2 := ⟨[], s.draws + 1, nofun, by simp [drawWord]⟩

theorem Sent.emit {e : OutEvent} (he : ∀ k, e ≠ .interrupt k) (s : State) : Sent s (emit e s) :=
  ⟨[e], s.draws, by simpa using he, rfl⟩

theorem Sent.requests {s t : State} (h : Sent s t) : requests t = requests s := by
  obtain ⟨o, d, ho, rfl⟩ := h
  unfold Claims.requests
  rw [List.filter_append, (List.filter_eq_nil_iff (l := o)).2 fun e he => ?_, List.append_nil]
  cases e with
  | interrupt k => exact absurd rfl (ho _ he k)
  | ioRead8 | ioWrite8 | ioRead16 | ioWrite16 => exact Bool.false_ne_true

/-! ### Generation 1 -/

theorem ioExtRead8_sent (a : Half) (s : State) : Sent s (ioExtRead8 a s).2 :=
  (Sent.draw s).trans (Sent.emit (by simp) _)

theorem ioRead1_sent (a : Half) (s : State) : Sent s (ioRead1 a s).2 := by
  unfold ioRead1
  split
  · exact Sent.refl s
  · exact ioExtRead8_sent a s

/-- Of the regions only three do more than give a byte: the prohibited one, the I/O registers, 0xFFFF. -/
theorem regionRead1_sent (b : Half) (s : State) : Sent s (regionRead1 b s).2 := by
  unfold regionRead1
  repeat' split
  case isFalse.isFalse.isFalse.isFalse.isFalse.isTrue => exact Sent.draw s
  case isFalse.isFalse.isFalse.isFalse.isFalse.isFalse.isTrue => exact ioRead1_sent b s
  case isFalse.isFalse.isFalse.isFalse.isFalse.isFalse.isFalse.isFalse => exact ioExtRead8_sent b s
  all_goals exact Sent.refl s

theorem read1_sent (m : Master) (a : Half) (s : State) : Sent s (read1 m a s).2 := by
  unfold read1 openRead1
  repeat' split
  case h_2 => exact regionRead1_sent _ s
  all_goals exact Sent.refl s

/-! ### Generation 2 -/

theorem ioRead2_sent (u : Word) (s : State) : Sent s (ioRead2 u s).2 := by
  unfold ioRead2 dmaRegRead dmaCellRead
  repeat' split
  · exact Sent.refl s
  · exact Sent.draw s
  · exact (Sent.draw s).trans (Sent.emit (by simp) _)

theorem compose16_ioRead2_sent (a : Word) (w : Width) (s : State) : Sent s (compose16 ioRead2 a w s).2 := by
  cases w with
  | b1 | b2 => exact ioRead2_sent _ s
  | b4 => exact (ioRead2_sent a s).trans (ioRead2_sent _ _)

theorem unmapped_sent (m : Master) (a : Word) (w : Width) (s : State) : Sent s (unmapped m a w s).2 := by
  unfold unmapped
  split
  · exact Sent.refl s
  · exact Sent.draw s

/-- What a read may change of generation 2: the boot-ROM latch, by a fetch of the CPU inside the boot ROM. -/
def LatchFilled (m : Master) (k : AccessKind) (a : Word) (s t : State) : Prop :=
  m = .cpu ∧ k = .fetch ∧ s.host.cpu.pcInBios = true ∧ a < 0x4000 ∧ ∃ v, t = { s with g2.biosLatch := v }

/-- What a read may change of the storage device: at most two staged bits taken, by a read of the window. -/
def BitsTaken (a : Word) (s t : State) : Prop :=
  InWindow s a.toNat ∧ ∃ e, s.g2.nvs2 = .eeprom e ∧
    ∃ n ≤ 2, t = setNvs2 (.eeprom { e with staged := e.staged.drop n }) s

theorem biosRead_cases (m : Master) (k : AccessKind) (a : Word) (w : Width) (s : State) (ha : a < 0x4000) :
    Sent s (biosRead m k (align w a) w s).2 ∨ LatchFilled m k a s (biosRead m k (align w a) w s).2 := by
  unfold biosRead
  split
  · split
    · rename_i hp
      cases k with
      | data => exact .inl (Sent.refl s)
      | fetch => exact .inr ⟨rfl, rfl, hp, ha, _, rfl⟩
    · exact .inl (Sent.refl s)
  · exact .inl (Sent.draw s)

/-! ### Cartridge ROM and the EEPROM window -/

section
variable {s : State} {a : Word} {w : Width}

/-- 20_memory.md R118. -/
theorem romHalf_toNat (s : State) (u : Word) : (romHalf s.cfg u).toNat = romHalfword s u.toNat := by
  have hm : maskAddr u 0x01FFFFFF = u.toNat % 0x02000000 := maskAddr_eq_mod 25 (by decide)
  unfold romHalf romHalfword romUpper
  rw [hm]
  by_cases h : u.toNat % 0x02000000 < s.cfg.rom.size
  · rw [if_neg (Nat.not_le.2 h), if_pos h, toNat_append_byte]
  · rw [if_pos (Nat.not_lt.1 h), if_neg h, BitVec.toNat_setWidth, BitVec.toNat_ushiftRight,
      Nat.shiftRight_eq_div_pow]

/-- The byte of a halfword in the lane of an address (41_bus.md R222). -/
theorem laneByte_eq (h : Half) (a : Word) :
    ((if a.getLsbD 0 then hiByte h else loByte h).setWidth 32 : Word)
      = BitVec.ofNat 32 (h.toNat / 256 ^ (a.toNat % 2) % 256) := by
  have hb : a.getLsbD 0 = decide (a.toNat % 2 = 1) := by
    rw [BitVec.getLsbD, Nat.testBit_zero]
  apply BitVec.eq_of_toNat_eq
  rcases Nat.mod_two_eq_zero_or_one a.toNat with h2 | h2
  · rw [hb, h2]
    simp [loByte]
  · rw [hb, h2]
    simp [hiByte, Nat.shiftRight_eq_div_pow]

theorem romHalf_ofNat (s : State) (u : Word) :
    BitVec.ofNat 32 (romHalfword s u.toNat) = (romHalf s.cfg u).setWidth 32 := by
  rw [← romHalf_toNat]
  exact BitVec.ofNat_toNat ..

/-- Where no Eeprom answers, a read of the cartridge gives the ROM's value and changes nothing. -/
theorem compose16_rom (h : ¬ ReadsEeprom s a.toNat) :
    compose16 cartRead16 (align w a) w s = (romValue s w a.toNat, s) := by
  have at_word {u : Word} (hu : u.toNat / 4 = a.toNat / 4) : cartRead16 u s = (romHalf s.cfg u, s) :=
    cartRead16_rom fun hr => h ((readsEeprom_of_same_word hu).1 hr)
  cases w with
  | b1 =>
    have hb : cartRead16 (a &&& 0xFFFFFFFE) s = _ := at_word (align_div4 .b2 a)
    have ha := align_toNat .b2 a
    simp only [compose16, align, hb, laneByte_eq, romHalf_toNat, romValue]
    simp only [align, aligned, Width.bytes] at ha
    rw [ha]
  | b2 =>
    simp only [compose16, at_word (align_div4 .b2 a), romValue]
    rw [← romHalf_ofNat, align_toNat, aligned, Width.bytes]
  | b4 =>
    simp only [compose16, at_word (align_div4 .b4 a), at_word (align_b4_add2_div4 a), romValue,
      append_eq_ofNat, romHalf_toNat, align_toNat, align_b4_add2_toNat, aligned, Width.bytes]

/-- A read of the Eeprom's window takes one staged bit for each halfword it reads. -/
theorem compose16_eeprom {e : Eeprom} (he : s.g2.nvs2 = .eeprom e) (h : InWindow s a.toNat) :
    ∃ n ≤ 2, (compose16 cartRead16 (align w a) w s).2
      = setNvs2 (.eeprom { e with staged := e.staged.drop n }) s := by
  have at_word {u : Word} (hu : u.toNat / 4 = a.toNat / 4) :=
    cartRead16_eeprom he ((inWindow_of_same_word hu).2 h)
  cases w with
  | b1 => exact ⟨1, by decide, congrArg Prod.snd (at_word (align_div4 .b2 a))⟩
  | b2 => exact ⟨1, by decide, congrArg Prod.snd (at_word (align_div4 .b2 a))⟩
  | b4 =>
    refine ⟨2, by decide, ?_⟩
    have hw (n : Nvs2) : InWindow (setNvs2 n s) (align .b4 a + 2).toNat :=
      (inWindow_of_same_word (align_b4_add2_div4 a)).2 h
    simp only [compose16, at_word (align_div4 .b4 a), cartRead16_eeprom (setNvs2_g2_nvs2 _ s) (hw _),
      List.drop_drop]
    rfl

end

/-! ### Every read of generation 2 -/

theorem lt_4000_of_align {w : Width} {a : Word} (h : align w a < 0x4000) : a < 0x4000 := by
  have := align_div4 w a
  bv_omega

theorem lowRead2_cases (m : Master) (k : AccessKind) (a : Word) (w : Width) (s : State) :
    Sent s (lowRead2 m k a w s).2 ∨ LatchFilled m k a s (lowRead2 m k a w s).2 := by
  unfold lowRead2
  repeat' split
  · rename_i ha
    exact biosRead_cases m k a w s (lt_4000_of_align ha)
  · exact .inl (unmapped_sent m a w s)
  · exact .inl (Sent.refl s)
  · exact .inl (Sent.refl s)
  · exact .inl (unmapped_sent m a w s)

theorem midRead2_sent (m : Master) (a : Word) (w : Width) (s : State) : Sent s (midRead2 m a w s).2 := by
  unfold midRead2
  repeat' split
  · exact compose16_ioRead2_sent _ w s
  · exact unmapped_sent m a w s
  all_goals exact Sent.refl s

theorem read2_cases (m : Master) (k : AccessKind) (a : Word) (w : Width) (s : State) :
    Sent s (read2 m k a w s).2 ∨ LatchFilled m k a s (read2 m k a w s).2
      ∨ BitsTaken a s (read2 m k a w s).2 := by
  unfold read2
  repeat' split
  · exact (lowRead2_cases m k a w s).imp_right .inl
  · exact .inl (midRead2_sent m a w s)
  · by_cases h : ReadsEeprom s a.toNat
    · obtain ⟨hw, e, he⟩ := h
      exact .inr (.inr ⟨hw, e, he, compose16_eeprom he hw⟩)
    · rw [compose16_rom h]
      exact .inl (Sent.refl s)
  · exact .inl (Sent.refl s)
  · exact .inl (unmapped_sent m a w s)

/-- Everything a read can do beside returning a value. -/
theorem busRead_cases (m : Master) (k : AccessKind) (a : Word) (w : Width) (s : State) :
    Sent s (busRead m k a w s).2
      ∨ s.cfg.gen = .gen2 ∧ LatchFilled m k a s (busRead m k a w s).2
      ∨ s.cfg.gen = .gen2 ∧ BitsTaken a s (busRead m k a w s).2 := by
  unfold busRead
  split
  · exact .inl (read1_sent m _ s)
  · rename_i g
    exact (read2_cases m k a w s).imp_right (Or.imp (⟨g, ·⟩) (⟨g, ·⟩))

/-! ### The statement -/

/-- Settles O22: by the three things a read can do. -/
theorem readsLeaveStateUnchanged : Obligations.ReadsLeaveStateUnchanged := by
  intro w m k a s t h
  rw [exec_readRow] at h
  obtain rfl := callRead_eq_next h
  have staged_drop_zero (e : Eeprom) (he : s.g2.nvs2 = .eeprom e) :
      ∃ n ≤ 2, s.g2.nvs2 = .eeprom { e with staged := e.staged.drop n } := ⟨0, by decide, he⟩
  unfold returning
  obtain hs | ⟨g, hm, hk, hp, ha, v, hs⟩ | ⟨g, hw, e, he, n, hn, hs⟩ := busRead_cases m k a w s
  · have hr : requests (busRead m k a w s).2 = requests s := hs.requests
    obtain ⟨o, d, -, hs⟩ := hs
    rw [hs] at hr ⊢
    exact ⟨rfl, hr, fun _ => rfl, fun _ => rfl, staged_drop_zero⟩
  · rw [hs]
    exact ⟨rfl, rfl, fun hl => absurd ⟨g, hm, hk, hp, ha⟩ hl, fun _ => rfl, staged_drop_zero⟩
  · rw [hs]
    refine ⟨rfl, rfl, fun _ => rfl, ?_, fun e' he' => ?_⟩
    · rintro (hg | hw' | hn')
      · exact absurd (g.symm.trans hg) (by decide)
      · exact absurd (hw'.symm.trans (inEepromWindow_iff.2 hw)) (by decide)
      · exact absurd he (hn' e)
    · obtain rfl : e = e' := Nvs2.eeprom.inj (he.symm.trans he')
      exact ⟨n, hn, rfl⟩

end Sys2Proof.Machine
end

section
/-! PROOFS. Generation 1: what a held-back access of the CPU reads (20_memory.md R120, R121, R123), and the
memories that the bus reads and writes as plain bytes (R101 to R103, 41_bus.md R221, R224). -/
namespace Sys2Proof.Machine

open Sys2Proof.Safety Sys2Proof.Claims

/-! ### Held-back accesses -/

theorem oamBlocked_iff {s : State} {a : Half} : oamBlocked s a = true ↔ OamBusy s a := by
  simp [oamBlocked, OamBusy]

theorem busBlocked_iff {s : State} {a : Half} :
    busBlocked s a = true ↔ s.g1.blocked ≠ .none ∧ (busOf s.cfg a).toBlocked = s.g1.blocked := by
  simp [busBlocked]

theorem gated1_iff {s : State} {a : Half} : gated1 s a = true ↔ Gated s a := by
  simp [gated1, gatedMode3, gatedMode23, Gated]

theorem heldBack_of_oamBusy {s : State} {a : Half} (h : OamBusy s a) : heldBack s a = some 0xFF := by
  rw [heldBack, if_pos (oamBlocked_iff.2 h)]

section
variable {s : State} {a : Half} (h : ¬ OamBusy s a)
include h

theorem heldBack_of_blocked (hb : s.g1.blocked ≠ .none) (ha : (busOf s.cfg a).toBlocked = s.g1.blocked) :
    heldBack s a = some s.g1.dmaLastByte := by
  rw [heldBack, if_neg (mt oamBlocked_iff.1 h), if_pos (busBlocked_iff.2 ⟨hb, ha⟩)]

theorem heldBack_of_gated (hb : s.g1.blocked = .none ∨ (busOf s.cfg a).toBlocked ≠ s.g1.blocked)
    (hg : Gated s a) : heldBack s a = some 0xFF := by
  have hb' : ¬ busBlocked s a = true := fun hn =>
    hb.elim (busBlocked_iff.1 hn).1 fun ha => ha (busBlocked_iff.1 hn).2
  rw [heldBack, if_neg (mt oamBlocked_iff.1 h), if_neg hb', if_pos (gated1_iff.2 hg)]

end

theorem exec_heldBack {s : State} {a : Half} {x : Byte} (g : s.cfg.gen = .gen1) (hs : ¬ Stalled s)
    (h : heldBack s a = some x) (k : AccessKind) (v : Byte) :
    exec (.busRead8 .cpu k (gbAddr a)) s = .next (gave (byte x) s)
      ∧ exec (.busWrite8 .cpu (gbAddr a) v) s = .next s := by
  have st := cpuStalled_of_not hs
  rw [exec_busRead8, exec_busWrite8, cpuRead_gen1 g st, cpuWrite_gen1 g st, read1_held h, write1_held h]
  exact ⟨rfl, rfl⟩

/-- Settles O23: the three cases of `heldBack`, in its order. -/
theorem heldBackCpuAccess : Obligations.HeldBackCpuAccess :=
  fun _ _ v k g hs =>
    ⟨fun h => exec_heldBack g hs (heldBack_of_oamBusy h) k v,
     fun h hb ha => exec_heldBack g hs (heldBack_of_blocked h hb ha) k v,
     fun h hb hg => exec_heldBack g hs (heldBack_of_gated h hb hg) k v⟩

/-! ### Accesses that reach their location, by every master -/

theorem bootOk_of_legal {c : Config} (g : c.gen = .gen1) (hc : constructionRefusal c = none) :
    bootOk c.boot = true := by
  simp only [constructionRefusal, g, refusal1] at hc
  repeat' split at hc
  case isFalse.isFalse.isFalse.isFalse hb => exact Bool.not_eq_false _ ▸ hb
  all_goals cases hc

section
variable {s : State} {m : Master} {a : Half} (h : Open1By s m a)
include h

theorem hasMaster_open1 : hasMaster s.cfg m = true := by
  obtain ⟨g, -, ⟨rfl, -⟩ | rfl | ⟨rfl, hc⟩⟩ := h
  · rfl
  · simp [hasMaster, g]
  · simp [hasMaster, g, hc]

theorem not_violates_open1 : ¬ violates m s = true := by
  obtain ⟨-, -, ⟨-, -, -, hs, -⟩ | rfl | ⟨rfl, -⟩⟩ := h
  · exact not_violates fun _ => hs
  · exact not_violates nofun
  · exact not_violates nofun

theorem read1_open1 : read1 m a s = openRead1 a s := by
  obtain ⟨-, -, ⟨rfl, -, -, -, hh⟩ | rfl | ⟨rfl, -⟩⟩ := h
  · exact read1_open hh
  · rfl
  · rfl

theorem write1_open1 (v : Byte) : write1 m a v s = regionWrite1 (echo a) v s := by
  obtain ⟨-, -, ⟨rfl, -, -, -, hh⟩ | rfl | ⟨rfl, -⟩⟩ := h
  · exact write1_open hh
  · rfl
  · rfl

theorem callRead_open1 (k : AccessKind) :
    callRead m k (gbAddr a) .b1 s
      = .next (returning ((openRead1 a s).1.setWidth 32, (openRead1 a s).2)) := by
  rw [callRead, if_neg (not_violates_open1 h), accessRefusal_gen1 h.1 (hasMaster_open1 h)]
  simp only [busRead, h.1, gbAddr_setWidth, read1_open1 h]

theorem callWrite_open1 (v : Byte) :
    callWrite m (gbAddr a) .b1 (v.setWidth 32) s = regionWrite1 (echo a) v s := by
  have hv : (v.setWidth 32 : Word).setWidth 8 = v := BitVec.setWidth_setWidth_of_le v (by decide)
  rw [callWrite, if_neg (not_violates_open1 h), accessRefusal_gen1 h.1 (hasMaster_open1 h)]
  simp only [busWrite, h.1, gbAddr_setWidth, hv, write1_open1 h]

/-- No boot ROM of a legal length reaches 0x8000 (60_exceptions.md R609). -/
theorem openRead1_above (ha : 0x8000 ≤ a) : openRead1 a s = regionRead1 (echo a) s := by
  have he : 0x8000 ≤ (echo a).toNat := by
    unfold echo; split <;> bv_omega
  have hb : bootOverlay s (echo a) = none := by
    have hb := bootOk_of_legal h.1 h.2.1
    unfold bootOverlay
    split
    · rfl
    · rename_i m hm
      simp only [bootOk, hm, Bool.or_eq_true, beq_iff_eq] at hb
      rw [if_neg (by omega)]
  rw [openRead1, hb]

end

/-! ### The memories -/

theorem regionRead1_oam {b : Half} {s : State} (h : 0xFE00 ≤ b) (k : b ≤ 0xFE9F) :
    regionRead1 b s = (s.g1.oam.read (b.toNat - 0xFE00), s) := by
  rw [regionRead1, if_neg (by bv_omega), if_neg (by bv_omega), if_neg (by bv_omega),
    if_neg (by bv_omega), if_pos k]

theorem regionRead1_hram {b : Half} {s : State} (h : 0xFF80 ≤ b) (k : b ≤ 0xFFFE) :
    regionRead1 b s = (s.g1.hram.read (b.toNat - 0xFF80), s) := by
  rw [regionRead1, if_neg (by bv_omega), if_neg (by bv_omega), if_neg (by bv_omega),
    if_neg (by bv_omega), if_neg (by bv_omega), if_neg (by bv_omega), if_neg (by bv_omega), if_pos k]

theorem regionRead1_prohibited {b : Half} {s : State} (h : 0xFEA0 ≤ b) (k : b ≤ 0xFEFF) :
    regionRead1 b s = drawByte s := by
  rw [regionRead1, if_neg (by bv_omega), if_neg (by bv_omega), if_neg (by bv_omega),
    if_neg (by bv_omega), if_neg (by bv_omega), if_pos k]

theorem regionWrite1_prohibited {b : Half} {v : Byte} {s : State} (h : 0xFEA0 ≤ b) (k : b ≤ 0xFEFF) :
    regionWrite1 b v s = .next s := by
  rw [regionWrite1, if_neg (by bv_omega), if_neg (by bv_omega), if_neg (by bv_omega),
    if_neg (by bv_omega), if_neg (by bv_omega), if_pos k]

theorem wramIndex_echo {s : State} {a : Half} (h : 0xC000 ≤ a.toNat) (k : a.toNat ≤ 0xFDFF) :
    0xC000 ≤ echo a ∧ echo a ≤ 0xDFFF ∧ wramIndex s (echo a) = workOffset s a.toNat := by
  have hb : wramBank s = workBank s := by
    unfold wramBank workBank
    cases s.cfg.cgb <;> by_cases hz : s.g1.svbk = 0 <;> simp [hz]
  have he : (echo a).toNat = if a.toNat ≤ 0xDFFF then a.toNat else a.toNat - 0x2000 := by
    unfold echo
    split <;> split <;> bv_omega
  have hi : (echo a ≤ 0xCFFF) ↔ (echo a).toNat ≤ 0xCFFF := Iff.rfl
  have hr : 0xC000 ≤ (echo a).toNat ∧ (echo a).toNat ≤ 0xDFFF := by
    rw [he]
    split <;> omega
  refine ⟨hr.1, hr.2, ?_⟩
  simp only [wramIndex, workOffset, hb, hi, he]

/-- The region of a memory, read and written, is its array at the offset of the address. -/
theorem region1_ram1 {s : State} {a : Half} {r : Ram1} {o : Nat} (h : ram1At s a.toNat = some (r, o)) :
    0x8000 ≤ a ∧ regionRead1 (echo a) s = ((r.image s.g1).read o, s)
      ∧ ∀ v, regionWrite1 (echo a) v s = .next (with1 s (r.put ((r.image s.g1).write o v) s.g1)) := by
  unfold ram1At at h
  split at h
  · rename_i ha
    cases h
    rw [echo_low (by bv_omega), regionRead1_vram (by bv_omega) (by bv_omega)]
    exact ⟨by bv_omega, rfl, fun v => regionWrite1_vram (by bv_omega) (by bv_omega)⟩
  split at h
  · rename_i ha
    cases h
    obtain ⟨h1, h2, h3⟩ := wramIndex_echo (s := s) ha.1 ha.2
    rw [regionRead1_wram h1 h2, ← h3]
    exact ⟨by bv_omega, rfl, fun v => regionWrite1_wram h1 h2⟩
  split at h
  · rename_i ha
    cases h
    rw [echo_high (by bv_omega), regionRead1_oam (by bv_omega) (by bv_omega)]
    exact ⟨by bv_omega, rfl, fun v => regionWrite1_oam (by bv_omega) (by bv_omega)⟩
  split at h
  · rename_i ha
    cases h
    rw [echo_high (by bv_omega), regionRead1_hram (by bv_omega) (by bv_omega)]
    exact ⟨by bv_omega, rfl, fun v => regionWrite1_hram (by bv_omega) (by bv_omega)⟩
  · cases h

/-- Every bank of work RAM that can be selected lies in the memory (10_state.md R34). -/
theorem workBank_end_le (s : State) :
    workBank s * 0x1000 + 0x1000 ≤ if s.cfg.cgb then 0x8000 else 0x2000 := by
  have := s.g1.svbk.isLt
  unfold workBank
  split
  · rename_i h
    rw [if_pos h.1]
    omega
  · split <;> omega

theorem workOffset_lt (s : State) {a : Nat} (h : a ≤ 0xFDFF) :
    workOffset s a < workBank s * 0x1000 + 0x1000 := by
  simp only [workOffset]
  split <;> split <;> omega

/-- The offset of an address lies in its memory. -/
theorem ram1At_lt {s : State} {a : Half} {r : Ram1} {o : Nat} (hs : SizesOk s)
    (h : ram1At s a.toNat = some (r, o)) : o < (r.image s.g1).size := by
  obtain ⟨hvram, hwram, hoam, hhram, -, -, -, -, -, -, hvbk⟩ := hs
  unfold ram1At at h
  split at h
  · cases h
    have := s.g1.vbk.isLt
    simp only [Ram1.image, hvram]
    split
    · omega
    · rename_i hc
      rw [hvbk (Bool.not_eq_true _ ▸ hc)]
      simp only [BitVec.ofNat_eq_ofNat, BitVec.toNat_ofNat]
      omega
  split at h
  · cases h
    rename_i ha
    rw [Ram1.image, hwram]
    exact Nat.lt_of_lt_of_le (workOffset_lt s ha.2) (workBank_end_le s)
  split at h
  · cases h
    simp only [Ram1.image, hoam]
    omega
  split at h
  · cases h
    simp only [Ram1.image, hhram]
    omega
  · cases h

theorem ram1_wf {s : State} (hs : MemoryOk s) (r : Ram1) : (r.image s.g1).wf = true := by
  obtain ⟨⟨hv, hw, ho, hh, -⟩, -⟩ := memoryOk_iff.1 hs
  cases r
  exacts [hv, hw, ho, hh]

/-! ### The statement -/

/-- Settles O40: a memory's region is its array at the offset of the address; the prohibited region reads a
free value. -/
theorem workRamReadAfterWrite : Obligations.WorkRamReadAfterWrite := by
  intro s m k a v h hm hs
  rw [exec_busRead8, exec_busWrite8, callRead_open1 h, callWrite_open1 h]
  constructor
  · intro r o hr
    obtain ⟨ha, hread, hwrite⟩ := region1_ram1 hr
    rw [openRead1_above h ha, hread, hwrite]
    exact ⟨rfl, _, rfl, storedAt_one (ram1_wf hm r) (fun _ => v) (ram1At_lt hs hr)⟩
  · intro h1 h2
    rw [openRead1_above h (by bv_omega), echo_high (by bv_omega), regionRead1_prohibited h1 h2,
      regionWrite1_prohibited h1 h2]
    exact ⟨⟨_, rfl⟩, rfl⟩

end Sys2Proof.Machine
end

section
/-! PROOFS. The memories of generation 2 (20_memory.md R105, R109, R112, R115; 41_bus.md R222, R225): the
region of each is its array at the aligned, mirrored offset. -/
namespace Sys2Proof.Machine

open Sys2Proof.Safety Sys2Proof.Claims

/-! ### Bytes in order -/

theorem readLE_eq_leValue (m : Image) (o : Nat) (w : Width) :
    readLE m o w = BitVec.ofNat 32 (leValue m o w.bytes) := by
  have byteLt (i : Nat) : (m.read i).toNat < 256 := (m.read i).isLt
  have b0 := byteLt o
  have b1 := byteLt (o + 1)
  have b2 := byteLt (o + 2)
  have b3 := byteLt (o + 3)
  apply BitVec.eq_of_toNat_eq
  simp only [readLE, Width.bytes, BitVec.toNat_ofNat]
  cases w with
  | b1 => simp [leValue]
  | b2 =>
    rw [BitVec.toNat_setWidth, toNat_append_byte]
    simp only [leValue, Nat.add_zero]
    omega
  | b4 =>
    rw [toNat_append_byte, toNat_append_byte, toNat_append_byte]
    simp only [leValue, Nat.add_zero]
    omega

theorem lane_eq_valueByte (v : Word) (i : Nat) : lane v i = valueByte v i := by
  apply BitVec.eq_of_toNat_eq
  rw [lane, valueByte, BitVec.extractLsb'_toNat, BitVec.toNat_ofNat, Nat.shiftRight_eq_div_pow, Nat.pow_mul]

/-- The bytes of a value cut to a width are the value's own. -/
theorem valueByte_cut {w : Width} {i : Nat} (h : i < w.bytes) (v : Word) :
    valueByte (w.cut v) i = valueByte v i := by
  cases w with
  | b1 =>
    obtain rfl : i = 0 := Nat.lt_one_iff.1 h
    apply BitVec.eq_of_toNat_eq
    simp [valueByte, Width.cut]
  | b2 =>
    apply BitVec.eq_of_toNat_eq
    obtain rfl | rfl : i = 0 ∨ i = 1 := by simp only [Width.bytes] at h; omega
    · simp [valueByte, Width.cut]
    · simp only [valueByte, Width.cut, BitVec.toNat_setWidth, BitVec.toNat_ofNat]
      omega
  | b4 => rfl

/-! ### Stores -/

section
variable {m : Image} (hm : m.wf = true) {o : Nat}
include hm

theorem storedAt_storeLE {w : Width} (v : Word) (ho : o + w.bytes ≤ m.size) :
    StoredAt m (storeLE m o w v) o w.bytes (valueByte v) := by
  cases w <;> simp only [storeLE, lane_eq_valueByte]
  · exact storedAt_one hm _ ho
  · exact storedAt_two hm _ ho
  · exact storedAt_four hm _ ho

theorem storedAt_storeTwice (v : Byte) (ho : o + 2 ≤ m.size) :
    StoredAt m (storeTwice m o v) o 2 fun _ => v :=
  storedAt_two hm (fun _ => v) ho

end

/-- What is stored is the function's values on the stored bytes. -/
theorem storedAt_congr {m m' : Image} {o n : Nat} {f g : Nat → Byte} (h : StoredAt m m' o n f)
    (hfg : ∀ i < n, f i = g i) : StoredAt m m' o n g :=
  ⟨fun i hi => (h.1 i hi).trans (hfg i hi), h.2⟩

/-! ### The offsets -/

theorem ram2_wf {s : State} (hs : MemoryOk s) (r : Ram2) : (r.image s.g2).wf = true := by
  obtain ⟨-, he, hi, hp, hv, ho, -⟩ := memoryOk_iff.1 hs
  cases r
  exacts [he, hi, hp, hv, ho]

/-- The size of each memory (10_state.md R44). -/
def ram2Size : Ram2 → Nat
  | .ewram => 0x40000
  | .iwram => 0x8000
  | .pal => 0x400
  | .vram => 0x18000
  | .oam => 0x400

theorem ram2_size {s : State} (hs : SizesOk s) (r : Ram2) : (r.image s.g2).size = ram2Size r := by
  obtain ⟨-, -, -, -, -, he, hi, hp, hv, ho, -⟩ := hs
  cases r
  exacts [he, hi, hp, hv, ho]

theorem ram2_offset_lt (r : Ram2) (a : Nat) : r.offset a < ram2Size r := by
  cases r with
  | vram => simp only [Ram2.offset, ram2Size]; split <;> omega
  | ewram | iwram | pal | oam => exact Nat.mod_lt _ (by decide)

/-- The mirrors begin at multiples of a word. -/
theorem ram2_offset_aligned (r : Ram2) (w : Width) (a : Nat) :
    r.offset (aligned w a) = aligned w (r.offset a) := by
  cases r with
  | vram =>
    have hmod : aligned w a % 0x20000 = aligned w (a % 0x20000) := by
      cases w <;> simp only [aligned, Width.bytes] <;> omega
    have hlt (x : Nat) : aligned w x < 0x18000 ↔ x < 0x18000 := by
      cases w <;> simp only [aligned, Width.bytes] <;> omega
    have hsub (x : Nat) : aligned w x - 0x8000 = aligned w (x - 0x8000) := by
      cases w <;> simp only [aligned, Width.bytes] <;> omega
    simp only [Ram2.offset, hmod, hlt, hsub]
    exact (apply_ite (aligned w) _ _ _).symm
  | ewram | iwram | pal | oam =>
    simp only [Ram2.offset]
    cases w <;> simp only [aligned, Width.bytes] <;> omega

/-- An aligned access lies in the memory whole. -/
theorem ram2_offset_end (r : Ram2) (w : Width) (a : Nat) :
    r.offset (aligned w a) + w.bytes ≤ ram2Size r := by
  have whole (n x : Nat) (hn : 4 * (n / 4) = n) (h : x < n) : aligned w x + w.bytes ≤ n := by
    cases w <;> simp only [aligned, Width.bytes] <;> omega
  rw [ram2_offset_aligned]
  exact whole _ _ (by cases r <;> rfl) (ram2_offset_lt r a)

/-! ### The regions -/

theorem page_of_div {a : Word} {n : Nat} (h : a.toNat / 0x1000000 = n) : page a = BitVec.ofNat 8 n := by
  apply BitVec.eq_of_toNat_eq
  have := a.isLt
  rw [page_toNat, BitVec.toNat_ofNat]
  omega

theorem maskAddr_ewram (a : Word) : maskAddr a 0x3FFFF = Ram2.ewram.offset a.toNat :=
  maskAddr_eq_mod 18 (by decide)

theorem maskAddr_iwram (a : Word) : maskAddr a 0x7FFF = Ram2.iwram.offset a.toNat :=
  maskAddr_eq_mod 15 (by decide)

theorem maskAddr_pal (a : Word) : maskAddr a 0x3FF = Ram2.pal.offset a.toNat :=
  maskAddr_eq_mod 10 (by decide)

theorem maskAddr_oam (a : Word) : maskAddr a 0x3FF = Ram2.oam.offset a.toNat :=
  maskAddr_eq_mod 10 (by decide)

theorem vramOff_eq (a : Word) : vramOff a = Ram2.vram.offset a.toNat := by
  have hm : maskAddr a 0x1FFFF = a.toNat % 0x20000 := maskAddr_eq_mod 17 (by decide)
  rw [vramOff, hm, Ram2.offset]

theorem read2_ram {r : Ram2} {a : Word} (h : a.toNat / 0x1000000 = r.page) (m : Master) (k : AccessKind)
    (w : Width) (s : State) :
    read2 m k a w s = (readLE (r.image s.g2) (r.offset (aligned w a.toNat)) w, s) := by
  rw [← align_toNat]
  cases r with
  | ewram =>
    have hp : page a = 2 := page_of_div h
    rw [read2, if_pos (by rw [hp]; decide), lowRead2, if_neg (by rw [hp]; decide), if_pos hp,
      maskAddr_ewram]
    rfl
  | iwram =>
    have hp : page a = 3 := page_of_div h
    rw [read2, if_pos (by rw [hp]; decide), lowRead2, if_neg (by rw [hp]; decide),
      if_neg (by rw [hp]; decide), if_pos hp, maskAddr_iwram]
    rfl
  | pal =>
    have hp : page a = 5 := page_of_div h
    rw [read2, if_neg (by rw [hp]; decide), if_pos (by rw [hp]; decide), midRead2,
      if_neg (by rw [hp]; decide), if_pos hp, maskAddr_pal]
    rfl
  | vram =>
    have hp : page a = 6 := page_of_div h
    rw [read2, if_neg (by rw [hp]; decide), if_pos (by rw [hp]; decide), midRead2,
      if_neg (by rw [hp]; decide), if_neg (by rw [hp]; decide), if_pos hp, vramOff_eq]
    rfl
  | oam =>
    have hp : page a = 7 := page_of_div h
    rw [read2, if_neg (by rw [hp]; decide), if_pos (by rw [hp]; decide), midRead2,
      if_neg (by rw [hp]; decide), if_neg (by rw [hp]; decide), if_neg (by rw [hp]; decide), maskAddr_oam]
    rfl

/-! ### Writes of the video memories -/

section
variable {m : Master} {a v : Word} {w : Width} {s : State}

theorem write2_pal (h : a.toNat / 0x1000000 = Ram2.pal.page) :
    write2 m a w v s = .next (writePal (align w a) w v s) := by
  have hp : page a = 5 := page_of_div h
  rw [write2, if_neg (by rw [hp]; decide), if_pos (by rw [hp]; decide), midWrite2,
    if_neg (by rw [hp]; decide), if_pos hp]

theorem write2_vram (h : a.toNat / 0x1000000 = Ram2.vram.page) :
    write2 m a w v s = .next (writeVram2 (align w a) w v s) := by
  have hp : page a = 6 := page_of_div h
  rw [write2, if_neg (by rw [hp]; decide), if_pos (by rw [hp]; decide), midWrite2,
    if_neg (by rw [hp]; decide), if_neg (by rw [hp]; decide), if_pos hp]

theorem write2_oam (h : a.toNat / 0x1000000 = Ram2.oam.page) :
    write2 m a w v s = .next (writeOam2 (align w a) w v s) := by
  have hp : page a = 7 := page_of_div h
  rw [write2, if_neg (by rw [hp]; decide), if_pos (by rw [hp]; decide), midWrite2,
    if_neg (by rw [hp]; decide), if_neg (by rw [hp]; decide), if_neg (by rw [hp]; decide)]

theorem writePal_wide (hw : w ≠ .b1) :
    writePal a w v s = with2 s
      (Ram2.pal.put (storeLE (Ram2.pal.image s.g2) (Ram2.pal.offset a.toNat) w v) s.g2) := by
  rw [← maskAddr_pal]
  cases w <;> [exact absurd rfl hw; rfl; rfl]

theorem writeVram2_wide (hw : w ≠ .b1) :
    writeVram2 a w v s = with2 s
      (Ram2.vram.put (storeLE (Ram2.vram.image s.g2) (Ram2.vram.offset a.toNat) w v) s.g2) := by
  rw [← vramOff_eq]
  cases w <;> [exact absurd rfl hw; rfl; rfl]

theorem writeOam2_wide (hw : w ≠ .b1) :
    writeOam2 a w v s = with2 s
      (Ram2.oam.put (storeLE (Ram2.oam.image s.g2) (Ram2.oam.offset a.toNat) w v) s.g2) := by
  rw [← maskAddr_oam]
  cases w <;> [exact absurd rfl hw; rfl; rfl]

/-- A write of two or four bytes, and in work RAM of one too. -/
theorem write2_ram {r : Ram2} (h : a.toNat / 0x1000000 = r.page)
    (hw : w ≠ .b1 ∨ r = .ewram ∨ r = .iwram) :
    write2 m a w v s = .next (with2 s
      (r.put (storeLE (r.image s.g2) (r.offset (aligned w a.toNat)) w v) s.g2)) := by
  rw [← align_toNat]
  cases r with
  | ewram =>
    have hp : page a = 2 := page_of_div h
    rw [write2, if_pos (by rw [hp]; decide), lowWrite2, if_pos hp, maskAddr_ewram]
    rfl
  | iwram =>
    have hp : page a = 3 := page_of_div h
    rw [write2, if_pos (by rw [hp]; decide), lowWrite2, if_neg (by rw [hp]; decide), if_pos hp,
      maskAddr_iwram]
    rfl
  | pal => rw [write2_pal h, writePal_wide (hw.resolve_right (by simp))]
  | vram => rw [write2_vram h, writeVram2_wide (hw.resolve_right (by simp))]
  | oam => rw [write2_oam h, writeOam2_wide (hw.resolve_right (by simp))]

end

/-! ### One-byte writes of the video memories (20_memory.md R115) -/

theorem lane_zero_setWidth (v : Byte) : lane (v.setWidth 32) 0 = v := by
  apply BitVec.eq_of_toNat_eq
  simp [lane, v.isLt]

/-- A mask without bit 0 is the mask of the even address. -/
theorem maskAddr_even (a m : Word) : maskAddr a (0xFFFFFFFE &&& m) = maskAddr (align .b2 a) m := by
  rw [maskAddr, ← BitVec.and_assoc]
  rfl

theorem maskAddr_pal_even (a : Word) : maskAddr a 0x3FE = Ram2.pal.offset a.toNat / 2 * 2 := by
  have h := maskAddr_even a 0x3FF
  rw [maskAddr_pal, align_toNat, ram2_offset_aligned] at h
  exact h

section
variable {m : Master} {a : Word} {v : Byte} {s : State}

theorem write2_pal_byte (h : a.toNat / 0x1000000 = Ram2.pal.page) :
    write2 m a .b1 (v.setWidth 32) s = .next (with2 s
      (Ram2.pal.put (storeTwice (Ram2.pal.image s.g2) (Ram2.pal.offset a.toNat / 2 * 2) v) s.g2)) := by
  rw [write2_pal h, ← maskAddr_pal_even]
  simp only [writePal, align, lane_zero_setWidth]
  rfl

theorem write2_vram_byte (h : a.toNat / 0x1000000 = Ram2.vram.page)
    (hl : Ram2.vram.offset a.toNat < s.host.bgLimit.value) :
    write2 m a .b1 (v.setWidth 32) s = .next (with2 s
      (Ram2.vram.put (storeTwice (Ram2.vram.image s.g2) (Ram2.vram.offset a.toNat / 2 * 2) v) s.g2)) := by
  rw [write2_vram h]
  simp only [writeVram2, align, lane_zero_setWidth, vramOff_eq, if_pos hl]
  rfl

theorem write2_vram_byte_beyond (h : a.toNat / 0x1000000 = Ram2.vram.page)
    (hl : s.host.bgLimit.value ≤ Ram2.vram.offset a.toNat) (x : Word) : write2 m a .b1 x s = .next s := by
  rw [write2_vram h]
  simp only [writeVram2, align, vramOff_eq, if_neg (Nat.not_lt.2 hl)]

theorem write2_oam_byte (h : a.toNat / 0x1000000 = Ram2.oam.page) (x : Word) :
    write2 m a .b1 x s = .next s := by
  rw [write2_oam h]
  rfl

end

/-! ### The statements -/

/-- Settles O43: a memory's region is its array at the aligned offset of the address. -/
theorem gen2RamReadAndWrite : Obligations.Gen2RamReadAndWrite := by
  intro s r w m k a v h hm hs ha o
  have hend : o + w.bytes ≤ (r.image s.g2).size := ram2_size hs r ▸ ram2_offset_end r w a.toNat
  rw [exec_readRow, exec_writeRow, callRead_open2 h, callWrite_open2 h, read2_ram ha, readLE_eq_leValue]
  refine ⟨rfl, fun hw => ⟨_, write2_ram ha hw, ?_⟩⟩
  exact storedAt_congr (storedAt_storeLE (ram2_wf hm r) _ hend) fun i hi => valueByte_cut hi v

/-- Settles O44: the doubled store below the limit of palette and video RAM, and no store elsewhere. -/
theorem narrowVideoWrites : Obligations.NarrowVideoWrites := by
  intro s m a v h hm hs
  rw [exec_busWrite8, callWrite_open2 h]
  refine ⟨?_, fun ha hl => write2_vram_byte_beyond ha hl _, fun ha => write2_oam_byte ha _⟩
  intro r hr ha
  have hend : r.offset a.toNat / 2 * 2 + 2 ≤ (r.image s.g2).size := by
    have := ram2_offset_end r .b2 a.toNat
    rwa [ram2_offset_aligned, ← ram2_size hs r] at this
  have stored := storedAt_storeTwice (ram2_wf hm r) v hend
  obtain rfl | ⟨rfl, hl⟩ := hr
  · exact ⟨_, write2_pal_byte ha, stored⟩
  · exact ⟨_, write2_vram_byte ha hl, stored⟩

end Sys2Proof.Machine
end

section
/-! PROOFS. Generation 2 where nothing answers, in the boot ROM and in cartridge ROM (20_memory.md R113, R116
to R118; 60_exceptions.md R620; 41_bus.md R222, R225). -/
namespace Sys2Proof.Machine

open Sys2Proof.Safety Sys2Proof.Claims

/-! ### Lanes of a word -/

theorem laneOf_eq (x a : Word) (w : Width) : laneOf x a w = laneValue x w a.toNat := by
  apply BitVec.eq_of_toNat_eq
  cases w with
  | b1 =>
    have ha : (a &&& 3).toNat = a.toNat % 4 := maskAddr_eq_mod (m := 3) 2 (by decide)
    simp only [laneOf, lane_eq_valueByte, ha]
    simp [laneValue, valueByte, aligned, Width.bytes]
  | b2 =>
    have ha : (a &&& 2).toNat = aligned .b2 (a.toNat % 4) := by
      have h := maskAddr_eq_mod (a := align .b2 a) (m := 3) 2 (by decide)
      rw [← maskAddr_even, align_toNat] at h
      simp only [aligned, Width.bytes] at h ⊢
      exact h.trans (by omega)
    simp only [laneOf, ha, laneValue, Width.bytes, BitVec.toNat_setWidth, BitVec.extractLsb'_toNat,
      BitVec.toNat_ofNat, Nat.shiftRight_eq_div_pow, Nat.pow_mul]
    rfl
  | b4 =>
    have ha : aligned .b4 (a.toNat % 4) = 0 := by simp only [aligned, Width.bytes]; omega
    simp only [laneOf, laneValue, ha, Width.bytes, BitVec.toNat_ofNat]
    omega

/-- An access takes one lane, whatever the address in its aligned place. -/
theorem laneOf_align (x a : Word) (w : Width) : laneOf x (align w a) w = laneValue x w a.toNat := by
  have h : aligned w (aligned w a.toNat % 4) = aligned w (a.toNat % 4) := by
    cases w <;> simp only [aligned, Width.bytes] <;> omega
  rw [laneOf_eq, align_toNat, laneValue, laneValue, h]

theorem openBusWord_standard {c : Config} (h : c.openBus = .standard) (p : CpuCtx) :
    openBusWord c p = prefetchWord p := by
  simp only [openBusWord, h, prefetchWord]
  split
  · rw [append_eq_ofNat, BitVec.toNat_setWidth]
    congr 1
    omega
  · rfl

/-! ### Where nothing answers -/

section
variable {m : Master} {a : Word} {w : Width} {s : State}

theorem read2_unmapped (h : Unmapped2 a.toNat) (k : AccessKind) : read2 m k a w s = unmapped m a w s := by
  have hp := page_toNat a
  have ha := align_div4 w a
  obtain h | h | h := h
  · by_cases h0 : page a = 0
    · rw [read2, if_pos (by rw [h0]; decide), lowRead2, if_pos h0, if_neg (by bv_omega)]
    · have h1 : page a = 1 := by bv_omega
      simp [read2, lowRead2, h1]
  · have h4 : page a = 4 := by bv_omega
    rw [read2, if_neg (by rw [h4]; decide), if_pos (by rw [h4]; decide), midRead2, if_pos h4,
      if_neg (by bv_omega)]
  · rw [read2, if_neg (by bv_omega), if_neg (by bv_omega), if_neg (by bv_omega), if_neg (by bv_omega)]

theorem read2_bios (h : a.toNat < 0x4000) (k : AccessKind) :
    read2 m k a w s = biosRead m k (align w a) w s := by
  have hp := page_toNat a
  have ha := align_div4 w a
  have h0 : page a = 0 := by bv_omega
  rw [read2, if_pos (by rw [h0]; decide), lowRead2, if_pos h0, if_pos (by bv_omega)]

theorem write2_nothing (h : Unmapped2 a.toNat ∨ a.toNat < 0x4000) (v : Word) :
    write2 m a w v s = .next s := by
  have hp := page_toNat a
  have ha := align_div4 w a
  unfold Unmapped2 at h
  by_cases h4 : page a < 4
  · rw [write2, if_pos h4, lowWrite2, if_neg (by bv_omega), if_neg (by bv_omega)]
  by_cases h8 : page a = 4
  · rw [write2, if_neg h4, if_pos (by rw [h8]; decide), midWrite2, if_pos h8, if_neg (by bv_omega)]
  · rw [write2, if_neg h4, if_neg (by bv_omega), if_neg (by bv_omega), if_neg (by bv_omega)]

end

/-- What a channel reads there is a free value (20_memory.md R117). -/
theorem read2_nothing_chan {a : Word} (h : Unmapped2 a.toNat ∨ a.toNat < 0x4000) (c : Chan) (k : AccessKind)
    (w : Width) (s : State) : read2 (.chan c) k a w s = drawWidth w s := by
  obtain h | h := h
  · exact read2_unmapped h k
  · exact read2_bios h k

/-! ### The boot ROM -/

theorem latchBios_align (k : AccessKind) (w : Width) (a : Word) (s : State) :
    latchBios k (align w a) s = match k with
      | .data => s
      | .fetch => with2 s { s.g2 with
          biosLatch := BitVec.ofNat 32 (leValue s.cfg.bios (a.toNat / 4 * 4) 4) } := by
  cases k with
  | data => rfl
  | fetch =>
    rw [latchBios, readLE_eq_leValue, align_toNat, align_toNat, aligned, Width.bytes, aligned_div4]
    rfl

/-! ### The statement on open bus and boot ROM -/

/-- Settles O45: by what answers at the address, and by the master. -/
theorem openBusAndBootRom : Obligations.OpenBusAndBootRom := by
  intro s w m k a v h
  rw [exec_readRow, exec_writeRow, callRead_open2 h, callWrite_open2 h]
  refine ⟨fun ha => write2_nothing ha _, fun ha hm => ?_, fun ha hm ho => ?_, fun ha hm hp => ?_,
    fun ha hm hp => ?_⟩
  · obtain ⟨-, -, ⟨rfl, -⟩ | ⟨c, rfl⟩⟩ := h
    · exact absurd rfl hm
    · rw [read2_nothing_chan ha]
      exact ⟨_, rfl⟩
  · subst hm
    rw [read2_unmapped ha, unmapped, laneOf_eq, openBusWord_standard ho]
    rfl
  · subst hm
    rw [read2_bios ha, biosRead, if_neg (by simp [hp]), laneOf_align]
    rfl
  · subst hm
    rw [read2_bios ha, biosRead, if_pos hp, readLE_eq_leValue, align_toNat, latchBios_align]
    cases k <;> rfl

/-! ### Cartridge ROM -/

/-- A halfword write where no Eeprom answers and none is selected. -/
theorem cartWrite16_rom {m : Master} {u : Word} {s : State} (h : ¬ ReadsEeprom s u.toNat)
    (hm : m = .cpu ∨ ¬ InWindow s u.toNat ∨ s.g2.nvs2 ≠ .unresolved) (d mask : Half) :
    cartWrite16 m u d mask s = .next s := by
  unfold cartWrite16
  split
  · rename_i hw
    have hw := inEepromWindow_iff.1 hw
    split
    · rename_i e hn
      exact absurd ⟨hw, e, hn⟩ h
    · rename_i hn
      exact absurd hn ((hm.resolve_left nofun).resolve_left (not_not.2 hw))
    · rfl
    · rename_i e _ hn
      exact absurd ⟨hw, e, hn⟩ h
    · rfl
  · rfl

section
variable {m : Master} {a : Word} {w : Width} {s : State} (h8 : 0x08000000 ≤ a.toNat)
  (he : a.toNat < 0x0E000000)
include h8 he

theorem read2_rom (h : ¬ ReadsEeprom s a.toNat) (k : AccessKind) :
    read2 m k a w s = (romValue s w a.toNat, s) := by
  have hp := page_toNat a
  rw [read2, if_neg (by bv_omega), if_neg (by bv_omega), if_pos (by bv_omega), compose16_rom h]

theorem write2_rom (h : ¬ ReadsEeprom s a.toNat)
    (hm : m = .cpu ∨ ¬ InWindow s a.toNat ∨ s.g2.nvs2 ≠ .unresolved) (v : Word) :
    write2 m a w v s = .next s := by
  have hp := page_toNat a
  have at_word {u : Word} {d mask : Half} (hu : u.toNat / 4 = a.toNat / 4) :
      cartWrite16 m u d mask s = .next s :=
    cartWrite16_rom (mt (readsEeprom_of_same_word hu).1 h)
      (hm.imp_right (Or.imp_left (mt (inWindow_of_same_word hu).1))) d mask
  rw [write2, if_neg (by bv_omega), if_neg (by bv_omega), if_pos (by bv_omega)]
  cases w with
  | b1 => exact at_word (mask := byteMask a) (align_div4 .b2 a)
  | b2 => exact at_word (mask := 0xFFFF) (align_div4 .b2 a)
  | b4 => rw [compose16W, at_word (align_div4 .b4 a), bindR_next, at_word (align_b4_add2_div4 a)]

end

/-! ### The statement on cartridge ROM -/

/-- Settles O46: an access is composed of ROM halfwords, none of which the Eeprom answers. -/
theorem cartridgeRomAccess : Obligations.CartridgeRomAccess := by
  intro s w m k a v h h8 he
  rw [exec_readRow, exec_writeRow, callRead_open2 h, callWrite_open2 h]
  refine ⟨fun hr => ⟨?_, ?_⟩, fun hr hm => write2_rom h8 he hr hm _, ?_⟩
  · rw [read2_rom h8 he hr]
    rfl
  · rintro x rfl
    exact (callRead_open2 h .data _ w).trans (by rw [eepromAddr, read2_rom h8 he hr]; rfl)
  · rintro hr rfl x rfl
    exact (callWrite_open2 h _ w v).trans (write2_rom h8 he hr (.inl rfl) v)

end Sys2Proof.Machine
end

section
/-! PROOFS. The decoder and the encoder (30_encoding.md R170 to R187): decoding undoes the encoding of a
well-formed operation, and decodes no frame to another. -/
namespace Sys2Proof

/-! ### What the decoder answers -/

/-- Only `TICK` and the forwarded read of an I/O address ask something of their operands. -/
@[simp] theorem wellFormed_of_ne {i : Instr} (ht : ∀ c, i ≠ .tick c) (hf : ∀ a, i ≠ .gbIoForwardRead a) :
    i.wellFormed = true := by
  unfold Instr.wellFormed
  split
  · exact absurd rfl (ht _)
  · exact absurd rfl (hf _)
  · rfl

/-- What is decoded, where anything is, is well-formed. -/
def DecodesWell (x : Except DecodeError Instr) : Prop := ∀ i, x = .ok i → i.wellFormed = true

@[simp] theorem decodesWell_error (e : DecodeError) : DecodesWell (.error e) := nofun

@[simp] theorem decodesWell_ok {i : Instr} : DecodesWell (.ok i) ↔ i.wellFormed = true := by
  simp [DecodesWell]

@[simp] theorem decodesWell_ite {c : Prop} [Decidable c] {x y : Except DecodeError Instr} :
    DecodesWell (if c then x else y) ↔ (c → DecodesWell x) ∧ (¬c → DecodesWell y) := by
  split <;> simp_all

/-! ### Format `call` -/

theorem decodeReadCall_well (l : List Byte) : DecodesWell (decodeReadCall l) := by
  unfold decodeReadCall
  split
  · split <;> simp
  · simp

theorem decodeWriteCall_well (l : List Byte) : DecodesWell (decodeWriteCall l) := by
  unfold decodeWriteCall
  split
  · split <;> simp
  · simp

/-- A count that is carried in 64 bits fits them. -/
theorem tickFits_toInt (x : BitVec 64) : tickFits x.toInt = true := by
  have := x.toInt_lt
  have := x.le_toInt
  simp only [tickFits, Bool.and_eq_true, decide_eq_true_eq]
  omega

theorem decodeTickCall_well (l : List Byte) : DecodesWell (decodeTickCall l) := by
  unfold decodeTickCall
  split
  · exact decodesWell_ok.2 (tickFits_toInt _)
  · simp

theorem decodeTriggerCall_well (l : List Byte) : DecodesWell (decodeTriggerCall l) := by
  unfold decodeTriggerCall
  split <;> simp

@[simp] theorem loadRow_well (g : Byte) (f : SaveFile) : DecodesWell (loadRow g f) := by
  simp [loadRow]

theorem decodeLoadCall_well (l : List Byte) : DecodesWell (decodeLoadCall l) := by
  unfold decodeLoadCall
  split <;> simp

theorem decodeSerializeCall_well (l : List Byte) : DecodesWell (decodeSerializeCall l) := by
  unfold decodeSerializeCall
  split <;> simp

theorem decodeCall_well (l : List Byte) : DecodesWell (decodeCall l) := by
  unfold decodeCall
  split
  · simp [decodeReadCall_well, decodeWriteCall_well, decodeTickCall_well, decodeTriggerCall_well,
      decodeLoadCall_well, decodeSerializeCall_well]
  · simp

/-! ### Formats `gb_write` and `gb_read` -/

@[simp] theorem plainWrite1_wellFormed (a : Half) (v : Byte) : (plainWrite1 a v).wellFormed = true := rfl

@[simp] theorem plainRead1_wellFormed (a : Half) : (plainRead1 a).wellFormed = true := rfl

@[simp] theorem controlA_wellFormed (a : Half) (v : Byte) : (controlA a v).wellFormed = true := by
  unfold controlA; split_ifs <;> rfl

@[simp] theorem controlB_wellFormed (a : Half) (v : Byte) : (controlB a v).wellFormed = true := by
  unfold controlB; split_ifs <;> rfl

@[simp] theorem controlC_wellFormed (a : Half) (v : Byte) : (controlC a v).wellFormed = true := by
  unfold controlC; split_ifs <;> rfl

@[simp] theorem controlD_wellFormed (a : Half) (v : Byte) : (controlD a v).wellFormed = true := by
  unfold controlD; split_ifs <;> rfl

theorem decodeControl_well (a : Half) (v sel : Byte) : DecodesWell (decodeControl a v sel) := by
  simp [decodeControl]

theorem decodeCartWrite_well (a : BitVec 13) (v sel : Byte) : DecodesWell (decodeCartWrite a v sel) := by
  simp [decodeCartWrite]

theorem decodeHdma5_well (v sel : Byte) : DecodesWell (decodeHdma5 v sel) := by
  simp [decodeHdma5]

theorem decodeIoWrite_well (lo v sel : Byte) : DecodesWell (decodeIoWrite lo v sel) := by
  simp [decodeIoWrite, onlyRow, decodeHdma5_well]

theorem decodeGbWrite_well (l : List Byte) : DecodesWell (decodeGbWrite l) := by
  unfold decodeGbWrite
  split <;> simp [decodeControl_well, decodeCartWrite_well, decodeIoWrite_well]

/-- The read is forwarded only where no register of the block answers (R229). -/
theorem decodeIoRead_wellFormed (lo : BitVec 7) : (decodeIoRead lo).wellFormed = true := by
  unfold decodeIoRead
  split_ifs
  case neg => simp_all [Instr.wellFormed, forwardable, ownedIo]
  all_goals rfl

theorem decodeRomRead_well (a : Half) (sel : Byte) : DecodesWell (decodeRomRead a sel) := by
  simp [decodeRomRead]

theorem decodeCartRead_well (a : BitVec 13) (sel : Byte) : DecodesWell (decodeCartRead a sel) := by
  simp [decodeCartRead]

theorem decodeGbRead_well (l : List Byte) : DecodesWell (decodeGbRead l) := by
  unfold decodeGbRead
  split <;> simp [decodeRomRead_well, decodeCartRead_well, onlyRow, decodeIoRead_wellFormed]

/-! ### Format `gba_io` -/

theorem plainAccess_wellFormed (m : Master) (w : Width) (v a : Word) (sel : Byte) :
    (plainAccess m w v a sel).wellFormed = true := by
  unfold plainAccess; split <;> rfl

theorem plainFrame_well (m : Byte) (w : Width) (v a : Word) (sel : Byte) :
    DecodesWell (plainFrame m w v a sel) := by
  unfold plainFrame
  split <;> simp [plainAccess_wellFormed]

/-- The rows of a channel ask nothing of their operands. -/
theorem decodeDmaReg_well (k : Chan) (off : Fin 12) (sel : Byte) (w : Width) (v : Word)
    {plain : Except DecodeError Instr} (hp : DecodesWell plain) :
    DecodesWell (decodeDmaReg k off sel w v plain) := by
  cases k <;>
    simp [decodeDmaReg, sadRow, dadRow, cntLRow, cntHRow, enableRow, disableRow, dmaReadRow, hp]

theorem decodeDmaPage_well (a : Word) (sel : Byte) (w : Width) (m : Byte) (v : Word) :
    DecodesWell (decodeDmaPage a sel w m v) := by
  have hp := plainFrame_well m w v a sel
  unfold decodeDmaPage
  split
  · split
    · exact decodeDmaReg_well _ _ _ _ _ hp
    · exact hp
  · exact hp

theorem decodeEepromPage_well (a : BitVec 24) (sel : Byte) (w : Width) (m : Byte) (v : Word) :
    DecodesWell (decodeEepromPage a sel w m v) := by
  unfold decodeEepromPage
  cases Chan.ofNat? m.toNat <;> cases Master.ofCode m <;> simp [plainFrame_well]

theorem decodeStoragePage_well (a : BitVec 25) (sel : Byte) (w : Width) (m : Byte) (v : Word) :
    DecodesWell (decodeStoragePage a sel w m v) := by
  simp [decodeStoragePage, plainFrame_well]

theorem decodeGbaIo_well (l : List Byte) : DecodesWell (decodeGbaIo l) := by
  unfold decodeGbaIo
  split
  · split <;> simp [decodeEepromPage_well, decodeStoragePage_well, decodeDmaPage_well]
  · simp

/-! ### Formats `flash_cmd` and `eeprom_stream` -/

theorem exactFlash_wellFormed {o : Half} {v : Byte} {i : Instr} (h : exactFlash o v = some i) :
    i.wellFormed = true := by
  unfold exactFlash at h
  split_ifs at h <;> cases h <;> rfl

theorem decodeFlash_well (l : List Byte) : DecodesWell (decodeFlash l) := by
  unfold decodeFlash
  split
  · cases h : exactFlash _ _ with
    | none => simp
    | some i => simp [exactFlash_wellFormed h]
  · simp

theorem streamRow_well (all l : List Bool) (stop : Option Bool) : DecodesWell (streamRow all l stop) := by
  unfold streamRow
  split <;> simp

theorem decodeStream_well (l : List Byte) : DecodesWell (decodeStream l) := by
  simp [decodeStream, streamRow_well]

/-! ### Every format -/

theorem decode_well (f : Frame) : DecodesWell (decode f) := by
  unfold decode
  cases f.fmt with
  | call => exact decodeCall_well f.bytes
  | gbWrite => exact decodeGbWrite_well f.bytes
  | gbRead => exact decodeGbRead_well f.bytes
  | gbaIo => exact decodeGbaIo_well f.bytes
  | flashCmd => exact decodeFlash_well f.bytes
  | eepromStream => exact decodeStream_well f.bytes

/-! ### Decoding an encoding -/

open Laws.RoundTrip in
/-- The round trips of the rows, together. -/
theorem decode_encode : ∀ i : Instr, Statement i
  | .busRead8 m k a => busRead8 m k a
  | .busRead16 m k a => busRead16 m k a
  | .busRead32 m k a => busRead32 m k a
  | .busWrite8 m a v => busWrite8 m a v
  | .busWrite16 m a v => busWrite16 m a v
  | .busWrite32 m a v => busWrite32 m a v
  | .tick c => tick c
  | .triggerVblank => triggerVblank
  | .triggerHblank => triggerHblank
  | .triggerFifoa => triggerFifoa
  | .triggerFifob => triggerFifob
  | .loadGen1 f => loadGen1 f
  | .serializeGen1 writable => serializeGen1 writable
  | .loadGen2 f => loadGen2 f
  | .serializeGen2 writable => serializeGen2 writable
  | .gbDmaWrite v => gbDmaWrite v
  | .gbVbkWrite v => gbVbkWrite v
  | .gbBootWrite v => gbBootWrite v
  | .gbHdma1 v => gbHdma1 v
  | .gbHdma2 v => gbHdma2 v
  | .gbHdma3 v => gbHdma3 v
  | .gbHdma4 v => gbHdma4 v
  | .gbHdma5Gdma len => gbHdma5Gdma len
  | .gbHdma5Hdma len => gbHdma5Hdma len
  | .gbHdma5Cancel len => gbHdma5Cancel len
  | .gbHdma5Restart len => gbHdma5Restart len
  | .gbSvbkWrite v => gbSvbkWrite v
  | .gbDmaRead => gbDmaRead
  | .gbVbkRead => gbVbkRead
  | .gbBootRead => gbBootRead
  | .gbHdma1Read => gbHdma1Read
  | .gbHdma2Read => gbHdma2Read
  | .gbHdma3Read => gbHdma3Read
  | .gbHdma4Read => gbHdma4Read
  | .gbHdma5Read => gbHdma5Read
  | .gbSvbkRead => gbSvbkRead
  | .gbIoForwardRead a => gbIoForwardRead a
  | .aRamg a v => aRamg a v
  | .aRomb0 a v => aRomb0 a v
  | .aRamb a v => aRamb a v
  | .aMode a v => aMode a v
  | .bRamg hi lo v => bRamg hi lo v
  | .bRomb hi lo v => bRomb hi lo v
  | .bIgnored a v => bIgnored a v
  | .cRamg a v => cRamg a v
  | .cRomb a v => cRomb a v
  | .cRamb a v => cRamb a v
  | .cLatch a v => cLatch a v
  | .dRamg a v => dRamg a v
  | .dRomb0 a v => dRomb0 a v
  | .dRomb1 a v => dRomb1 a v
  | .dRamb a v => dRamb a v
  | .dIgnored a v => dIgnored a v
  | .noneIgnored a v => noneIgnored a v
  | .cartRamWrite a v => cartRamWrite a v
  | .rtcWriteS a v => rtcWriteS a v
  | .rtcWriteM a v => rtcWriteM a v
  | .rtcWriteH a v => rtcWriteH a v
  | .rtcWriteDl a v => rtcWriteDl a v
  | .rtcWriteDh a v => rtcWriteDh a v
  | .romReadLow a => romReadLow a
  | .romReadHigh a => romReadHigh a
  | .aRomMap a => aRomMap a
  | .bRomMap a => bRomMap a
  | .cRomMap a => cRomMap a
  | .dRomMap a => dRomMap a
  | .cartRamRead a => cartRamRead a
  | .aRamMap a => aRamMap a
  | .bRamMap a => bRamMap a
  | .cRamMap a => cRamMap a
  | .rtcRead a => rtcRead a
  | .gbaDma0Sad w v => gbaDma0Sad w v
  | .gbaDma0Dad w v => gbaDma0Dad w v
  | .gbaDma0CntL w v => gbaDma0CntL w v
  | .gbaDma0CntH w v => gbaDma0CntH w v
  | .gbaDma0Enable ctl => gbaDma0Enable ctl
  | .gbaDma0Disable ctl => gbaDma0Disable ctl
  | .gbaDma0Read off w => gbaDma0Read off w
  | .gbaDma1Sad w v => gbaDma1Sad w v
  | .gbaDma1Dad w v => gbaDma1Dad w v
  | .gbaDma1CntL w v => gbaDma1CntL w v
  | .gbaDma1CntH w v => gbaDma1CntH w v
  | .gbaDma1Enable ctl => gbaDma1Enable ctl
  | .gbaDma1Disable ctl => gbaDma1Disable ctl
  | .gbaDma1Read off w => gbaDma1Read off w
  | .gbaDma2Sad w v => gbaDma2Sad w v
  | .gbaDma2Dad w v => gbaDma2Dad w v
  | .gbaDma2CntL w v => gbaDma2CntL w v
  | .gbaDma2CntH w v => gbaDma2CntH w v
  | .gbaDma2Enable ctl => gbaDma2Enable ctl
  | .gbaDma2Disable ctl => gbaDma2Disable ctl
  | .gbaDma2Read off w => gbaDma2Read off w
  | .gbaDma3Sad w v => gbaDma3Sad w v
  | .gbaDma3Dad w v => gbaDma3Dad w v
  | .gbaDma3CntL w v => gbaDma3CntL w v
  | .gbaDma3CntH w v => gbaDma3CntH w v
  | .gbaDma3Enable ctl => gbaDma3Enable ctl
  | .gbaDma3Disable ctl => gbaDma3Disable ctl
  | .gbaDma3Read off w => gbaDma3Read off w
  | .batteryRamRead a w => batteryRamRead a w
  | .batteryRamWrite a w v => batteryRamWrite a w v
  | .storageSniff a w v => storageSniff a w v
  | .eepromBitWrite k a d => eepromBitWrite k a d
  | .eepromDrainRead m a w => eepromDrainRead m a w
  | .eepromCpuWrite a w v => eepromCpuWrite a w v
  | .eepromSniff k a d => eepromSniff k a d
  | .flashRead a w => flashRead a w
  | .flashIdManuf hi w => flashIdManuf hi w
  | .flashIdDevice hi w => flashIdDevice hi w
  | .flashUnlock1 => flashUnlock1
  | .flashUnlock2 => flashUnlock2
  | .flashIdEnter => flashIdEnter
  | .flashIdExit => flashIdExit
  | .flashErase => flashErase
  | .flashEraseChip => flashEraseChip
  | .flashEraseSector o => flashEraseSector o
  | .flashProgram => flashProgram
  | .flashBank => flashBank
  | .flashProgramData o v => flashProgramData o v
  | .flashBankData v => flashBankData v
  | .flashUnrecognized o v => flashUnrecognized o v
  | .eepromRead6 x stop => eepromRead6 x stop
  | .eepromRead14 x stop => eepromRead14 x stop
  | .eepromWrite6 x d stop => eepromWrite6 x d stop
  | .eepromWrite14 x d stop => eepromWrite14 x d stop

/-! ### The statements -/

/-- Settles O4: the round trip of each row, and what each format's decoder answers. -/
theorem decodeAndEncodeAgree : Obligations.DecodeAndEncodeAgree :=
  ⟨decode_encode, decode_well⟩

/-- Settles O3: the decoder evaluated on each of the sixteen frames. -/
theorem specWordsDecode : Obligations.SpecWordsDecode := by
  unfold Obligations.SpecWordsDecode
  decide

end Sys2Proof
end

section
/-! PROOFS. The calls `tick` and `Trigger` (41_bus.md R226 to R228), and the word of the table placed as the
next call (30_encoding.md R187, log 11). -/
namespace Sys2Proof.Machine

open Sys2Proof.Claims

/-! ### `tick` by its count (30_encoding.md R173, 41_bus.md R226) -/

theorem exec_tick_of_nonneg {c : Int} (h : 0 ≤ c) (s : State) : exec (.tick c) s = ticks c.toNat s :=
  if_neg (Int.not_lt.2 h)

/-- Cycles run in two parts. -/
theorem ticks_add (m n : Nat) (s : State) : ticks (m + n) s = bindR (ticks m s) (ticks n) := by
  induction m generalizing s with
  | zero => rw [Nat.zero_add, ticks, bindR_next]
  | succ m ih =>
    rw [Nat.succ_add, ticks, ticks, bindR_assoc]
    exact congrArg (bindR (tick1 s)) (funext ih)

/-- A state that a cycle leaves as it is stays so over any number of them. -/
theorem ticks_of_tick1_same {s : State} (h : tick1 s = .next s) (n : Nat) : ticks n s = .next s := by
  induction n with
  | zero => rfl
  | succ n ih => rw [ticks, h, bindR_next, ih]

/-! ### An idle cycle (R226) -/

section
variable {s : State}

theorem gen1Tick1_of_idle (ho : s.g1.oamDma.state = .inactive)
    (hv : s.cfg.cgb = true → s.g1.vdma.state ≠ .active) : gen1Tick1 s = s := by
  have oam : oamTick1 s = s := by simp only [oamTick1, ho]
  unfold gen1Tick1
  split
  · rename_i hc
    rw [oam, vdmaTick1, if_neg (hv hc)]
  · exact oam

theorem winner_eq_none {c : Channels} (h : ∀ k, (c.get k).state ≠ .active) : winner c = none :=
  (if_neg (h .c0)).trans <| (if_neg (h .c1)).trans <| (if_neg (h .c2)).trans <| if_neg (h .c3)

theorem dmaTick1_of_idle (h : ∀ k, (chan s k).state = .inactive ∨ (chan s k).state = .paused) :
    dmaTick1 s = .next s := by
  have hw : winner s.g2.dma = none := winner_eq_none fun k e => by
    have := h k
    simp [chan, e] at this
  have hs (k : Chan) : runStarting k (isStarting s k) s = s := by
    rcases h k with e | e <;> simp [runStarting, e]
  simp only [dmaTick1, runActive, hw, bindR_next, runStartings, hs]

theorem tick1_of_idle (h : Idle s) : tick1 s = .next s := by
  unfold Idle at h
  split at h <;> rename_i g
  · simp only [tick1, enginesTick1, completionTick1, g, gen1Tick1_of_idle h.1 h.2, bindR_next]
  · obtain ⟨hk, hb⟩ := h
    simp [tick1, enginesTick1, completionTick1, g, dmaTick1_of_idle hk, hb]

end

/-! ### The statement on `tick` -/

/-- Settles O18: the cycles of a tick are counted one by one, and one of an idle state changes nothing. -/
theorem tickCounts : Obligations.TickCounts := by
  refine ⟨fun c s h => if_pos h, fun s => rfl, fun c s h hi => ?_, fun a b s ha hb => ?_⟩
  · rw [exec_tick_of_nonneg h, ticks_of_tick1_same (tick1_of_idle hi)]
  · rw [exec_tick_of_nonneg (Int.add_nonneg ha hb), exec_tick_of_nonneg ha, Int.toNat_add ha hb, ticks_add]
    cases ticks a.toNat s with
    | next t => exact (exec_tick_of_nonneg hb t).symm
    | fault _ => rfl
    | refused _ => rfl

/-! ### `Trigger` (R228, 47_dma_gen2.md R501) -/

/-- The row of an event. -/
def Event.row : Event → Instr
  | .vblank => .triggerVblank
  | .hblank => .triggerHblank
  | .fifoA => .triggerFifoa
  | .fifoB => .triggerFifob

theorem exec_row (e : Event) (s : State) : exec e.row s = callTrigger e s := by cases e <;> rfl

theorem field_timing (h : Half) : field h 12 2 = (timing h).toNat := by
  rw [field, timing, BitVec.extractLsb'_toNat, Nat.shiftRight_eq_div_pow]

/-- What an event fires is what it matches. -/
theorem fires_iff {e : Event} {c : DmaChannel} : Fires e.row c ↔ matchesEvent c e = true := by
  cases e <;> simp [Fires, matchesEvent, Event.row, field_timing, BitVec.toNat_eq]

theorem dmaStart_eq_started (t : Timing) (c : DmaChannel) : dmaStart t c = started t c := by
  unfold dmaStart started
  split <;> rfl

theorem vdmaHBlank_eq (s : State) :
    vdmaHBlank s = if s.g1.vdma.state = .paused ∧ s.g1.vdma.mode = .hblank then
        with1 s { s.g1 with vdma.state := .active, vdma.counter := s.cfg.timing.vdmaBlock }
      else s := rfl

/-- Settles O49: an event reaches the channels one by one, each by its own state and control. -/
theorem triggersStartWaitingChannels : Obligations.TriggersStartWaitingChannels := by
  refine ⟨fun s i g hi => ?_, fun s g => ?_⟩
  · obtain ⟨e, rfl⟩ : ∃ e : Event, i = e.row := by
      simp only [List.mem_cons, List.not_mem_nil, or_false] at hi
      rcases hi with rfl | rfl | rfl | rfl
      exacts [⟨.vblank, rfl⟩, ⟨.hblank, rfl⟩, ⟨.fifoA, rfl⟩, ⟨.fifoB, rfl⟩]
    refine ⟨(dmaTrigger e s).g2.dma, ?_, fun k => ?_⟩
    · rw [exec_row, callTrigger, g]
      rfl
    · have hk : (dmaTrigger e s).g2.dma.get k = triggered s.cfg.timing e (chan s k) := chan_dmaTrigger e s k
      rw [hk, fires_iff, triggered, ← dmaStart_eq_started]
      exact ⟨fun h => if_pos h, fun h => if_neg h⟩
  · have trigger (e : Event) : exec e.row s = trigger1 e s := by rw [exec_row, callTrigger, g]
    refine ⟨trigger .vblank, (trigger .hblank).trans ?_, trigger .fifoA, trigger .fifoB⟩
    rw [trigger1, vdmaHBlank_eq]
    cases s.cfg.cgb <;> simp

/-! ### A word of the table placed as the next call -/

theorem decode_tableFrame {nbits w : Nat} {i : Instr} (h : decodeTableWord nbits w = some i) :
    decode (tableFrame nbits w) = .ok i := by
  unfold decodeTableWord at h
  split at h <;> cases h
  assumption

/-- Settles O2: the placed frame is the first pending call, and taking it leaves the state with only the
generation selected. -/
theorem placedWordRunsNext : Obligations.PlacedWordRunsNext := by
  intro s nbits w i hd hc
  rw [step_of_pending_cons (s := s.withFetchWord nbits w) rfl,
    runCall_of_decode (callRefusal_of_legal hc (Int.le_refl _)) (decode_tableFrame hd)]
  change bindR (exec i { s with cfg := fetchConfig nbits w s.cfg }) _ = _
  cases exec i { s with cfg := fetchConfig nbits w s.cfg } <;> rfl

end Sys2Proof.Machine
end

section
/-! PROOFS. The I/O addresses: the registers of generation 1 that the block owns (41_bus.md R230 to R233,
46_dma_gen1.md R451 to R453, R457), and the addresses of both generations that it forwards (41_bus.md R222,
R225, R229). -/
namespace Sys2Proof.Machine

open Sys2Proof.Claims

/-! ### The I/O region of generation 1 -/

section
variable {s : State} {m : Master} {a : Half} (h : Open1By s m a) (h1 : 0xFF00 ≤ a) (h2 : a ≤ 0xFF7F)
include h h1 h2

theorem callRead_io1 (k : AccessKind) :
    callRead m k (gbAddr a) .b1 s = .next (returning (byte (ioRead1 a s).1, (ioRead1 a s).2)) := by
  rw [callRead_open1 h, openRead1_above h (by bv_omega), echo_high (by bv_omega), regionRead1_io h1 h2]
  rfl

theorem callWrite_io1 (v : Byte) :
    callWrite m (gbAddr a) .b1 (v.setWidth 32) s = ioWrite1 a v s := by
  rw [callWrite_open1 h, echo_high (by bv_omega), regionWrite1_io h1 h2]

end

theorem open1By_of_open1 {s : State} {a : Half} (h : Open1 s a) : Open1By s .cpu a :=
  ⟨h.1, h.2.1, .inl ⟨rfl, h⟩⟩

/-- The registers of R50 lie in the I/O region. -/
theorem ownsIo_range {a : Half} (h : ownsIo a = true) : 0xFF00 ≤ a ∧ a ≤ 0xFF7F := by
  simp only [ownsIo, Bool.or_eq_true, Bool.and_eq_true, beq_iff_eq, decide_eq_true_eq] at h
  bv_omega

section
variable {s : State} {a : Half} (h : Open1 s a) (ho : ownsIo a = true)
include h ho

theorem cpuRead8_owned : cpuRead8 (gbAddr a) s = .next (gave (byte (ownedRead a s)) s) := by
  obtain ⟨h1, h2⟩ := ownsIo_range ho
  rw [cpuRead8, callRead_io1 (open1By_of_open1 h) h1 h2, ioRead1, if_pos ho]
  rfl

theorem cpuWrite8_owned (v : Byte) : cpuWrite8 (gbAddr a) v s = ownedWrite a v s := by
  obtain ⟨h1, h2⟩ := ownsIo_range ho
  rw [cpuWrite8, callWrite_io1 (open1By_of_open1 h) h1 h2, ioWrite1, if_pos ho]

end

/-! ### The object-memory DMA register -/

/-- The page of R452, as an address. -/
theorem oamSource_eq_ofNat (v : Byte) :
    oamSource v = BitVec.ofNat 16 (v.toNat * 256 - if 0xE0 ≤ v then 0x2000 else 0) := by
  have hv : (v ++ 0#8 : Half).toNat = v.toNat * 256 := by
    rw [toNat_append_byte, BitVec.toNat_ofNat]
    omega
  have := v.isLt
  unfold oamSource
  split <;> bv_omega

/-- A write of 0xFF46 sets the whole channel, by the start delay alone (R451, R453). -/
theorem writeDma_eq (v : Byte) (s : State) :
    writeDma v s = with1 s { s.g1 with
      oamDma := { state := if s.cfg.timing.oamStart = 0 then .active else .starting,
                  reg := v, src := oamSource v, index := 0,
                  counter := if s.cfg.timing.oamStart = 0 then s.cfg.timing.oamUnit
                             else s.cfg.timing.oamStart },
      blocked := if s.cfg.timing.oamStart = 0 then (busOf s.cfg (oamSource v)).toBlocked else .none } := by
  by_cases hd : s.cfg.timing.oamStart = 0
  · simp only [writeDma, oamStart, oamEnterActive, oamArm, setOamDma, with1, hd, if_true]
  · simp only [writeDma, oamStart, oamArm, setOamDma, with1, hd, if_false]

/-- Settles O24: the register is owned, and a write of it sets the whole channel. -/
theorem objectDmaRegister : Obligations.ObjectDmaRegister := by
  intro s v h
  refine ⟨(cpuWrite8_owned h rfl v).trans ?_, cpuRead8_owned h rfl⟩
  rw [← oamSource_eq_ofNat, ← writeDma_eq]
  rfl

/-! ### The bank registers and the boot switch -/

theorem byte_readVbk (s : State) :
    byte (readVbk s) = if s.cfg.cgb then 0xFE ||| s.g1.vbk.setWidth 32 else 0xFF := by
  unfold readVbk
  split
  · generalize s.g1.vbk = b
    revert b
    decide
  · rfl

theorem byte_readSvbk (s : State) :
    byte (readSvbk s) = if s.cfg.cgb then 0xF8 ||| s.g1.svbk.setWidth 32 else 0xFF := by
  unfold readSvbk
  split
  · generalize s.g1.svbk = b
    revert b
    decide
  · rfl

theorem writeVbk_eq (v : Byte) (s : State) :
    writeVbk v s
      = if s.cfg.cgb then with1 s { s.g1 with vbk := BitVec.ofBool (v.getLsbD 0) } else s := by
  have hv : v.setWidth 1 = BitVec.ofBool (v.getLsbD 0) := BitVec.setWidth_one
  rw [writeVbk, hv]
  rfl

theorem writeSvbk_eq (v : Byte) (s : State) :
    writeSvbk v s
      = if s.cfg.cgb then with1 s { s.g1 with svbk := BitVec.ofNat 3 v.toNat } else s := rfl

/-- Settles O25: each register is owned, and is written and read on a colour machine only. -/
theorem bankAndBootRegisters : Obligations.BankAndBootRegisters := by
  intro s v
  rw [← byte_readVbk, ← byte_readSvbk, ← writeVbk_eq, ← writeSvbk_eq]
  exact ⟨fun h => ⟨cpuWrite8_owned h rfl v, cpuRead8_owned h rfl⟩,
    fun h => ⟨cpuWrite8_owned h rfl v, cpuRead8_owned h rfl⟩,
    fun h => ⟨cpuWrite8_owned h rfl v, cpuRead8_owned h rfl⟩⟩

/-! ### Forwarded accesses of generation 1 -/

theorem ioAddr_range (a : BitVec 7) :
    0xFF00 ≤ (0b111111110#9 ++ a : Half) ∧ (0b111111110#9 ++ a : Half) ≤ 0xFF7F := by
  revert a
  decide

theorem ownsIo_append (a : BitVec 7) : ownsIo (0b111111110#9 ++ a) = !forwardable a := by
  revert a
  decide

/-- A forwarded access: a read is sent out once and gives a draw, a write is sent out with its byte. -/
theorem callAccess_forwarded1 {s : State} {m : Master} {a : Half} (h : Open1By s m a)
    (ha : 0xFF00 ≤ a ∧ a ≤ 0xFF7F ∧ ownsIo a = false ∨ a = 0xFFFF) (k : AccessKind) (v : Byte) :
    callRead m k (gbAddr a) .b1 s
        = .next { gave (byte (drawByte s).1) s with outs := s.outs ++ [.ioRead8 a], draws := s.draws + 1 }
      ∧ callWrite m (gbAddr a) .b1 (v.setWidth 32) s
        = .next { s with outs := s.outs ++ [.ioWrite8 a v] } := by
  obtain ⟨h1, h2, ho⟩ | rfl := ha
  · rw [callRead_io1 h h1 h2, callWrite_io1 h h1 h2, ioRead1, ioWrite1, ho]
    exact ⟨rfl, rfl⟩
  · rw [callRead_open1 h, callWrite_open1 h, openRead1_above h (by decide)]
    exact ⟨rfl, rfl⟩

/-! ### Forwarded accesses of generation 2 -/

section
variable {m : Master} {a : Word} {w : Width} {s : State} (h1 : 0x04000000 ≤ a.toNat)
  (h2 : a.toNat < 0x04000400)
include h1 h2

theorem read2_io (k : AccessKind) : read2 m k a w s = compose16 ioRead2 (align w a) w s := by
  have hp := page_toNat a
  have ha := align_div4 w a
  have h4 : page a = 4 := by bv_omega
  rw [read2, if_neg (by rw [h4]; decide), if_pos (by rw [h4]; decide), midRead2, if_pos h4,
    if_pos (by bv_omega)]

theorem write2_io (v : Word) : write2 m a w v s = compose16W ioWrite2 (align w a) w v s := by
  have hp := page_toNat a
  have ha := align_div4 w a
  have h4 : page a = 4 := by bv_omega
  rw [write2, if_neg (by rw [h4]; decide), if_pos (by rw [h4]; decide), midWrite2, if_pos h4,
    if_pos (by bv_omega)]

end

/-- An aligned address, in the words of the statements. -/
theorem align_eq_ofNat (w : Width) (a : Word) : align w a = BitVec.ofNat 32 (aligned w a.toNat) := by
  rw [← align_toNat, BitVec.ofNat_toNat, BitVec.setWidth_eq]

theorem getLsbD_zero_eq_odd (a : Word) : a.getLsbD 0 = decide (a.toNat % 2 = 1) := by
  rw [BitVec.getLsbD, Nat.testBit_zero]

/-- The byte of a halfword in the lane of an address. -/
theorem laneByte_eq_extract (x : Half) (a : Word) :
    (if a.getLsbD 0 then hiByte x else loByte x) = x.extractLsb' (8 * (a.toNat % 2)) 8 := by
  rw [getLsbD_zero_eq_odd]
  rcases Nat.mod_two_eq_zero_or_one a.toNat with h | h <;> rw [h]
  · exact BitVec.setWidth_eq_extractLsb' (x := x) (by decide)
  · rfl

section
variable {a : Word} (ha : a.toNat < 0x040000B0 ∨ 0x040000E0 ≤ a.toNat)
include ha

/-- The DMA registers are whole words, so a word is of them whole or not at all. -/
theorem isDmaReg_of_same_word {u : Word} (hu : u.toNat / 4 = a.toNat / 4) : isDmaReg u = false := by
  simp only [isDmaReg, Bool.and_eq_false_iff, decide_eq_false_iff_not]
  bv_omega

theorem ioRead2_forwarded {u : Word} (hu : u.toNat / 4 = a.toNat / 4) : ioRead2 u = ioExtRead16 u := by
  funext s
  rw [ioRead2, isDmaReg_of_same_word ha hu]
  rfl

theorem ioWrite2_forwarded {u : Word} (hu : u.toNat / 4 = a.toNat / 4) (d mask : Half) (s : State) :
    ioWrite2 u d mask s = .next { s with outs := s.outs ++ [.ioWrite16 u d mask] } := by
  rw [ioWrite2, isDmaReg_of_same_word ha hu]
  rfl

end

section
variable {m : Master} {a : Word} {s : State} (h1 : 0x04000000 ≤ a.toNat) (h2 : a.toNat < 0x04000400)
  (ha : a.toNat < 0x040000B0 ∨ 0x040000E0 ≤ a.toNat)
include h1 h2 ha

theorem read2_forwarded_b1 (k : AccessKind) :
    read2 m k a .b1 s = (byte ((drawHalf s).1.extractLsb' (8 * (a.toNat % 2)) 8),
      { s with outs := s.outs ++ [.ioRead16 (BitVec.ofNat 32 (aligned .b2 a.toNat))],
               draws := s.draws + 1 }) := by
  have hu : ioRead2 (a &&& 0xFFFFFFFE) = _ := ioRead2_forwarded ha (align_div4 .b2 a)
  rw [read2_io h1 h2, compose16, align, hu, ← align_eq_ofNat, ← laneByte_eq_extract]
  rfl

theorem read2_forwarded_b2 (k : AccessKind) :
    read2 m k a .b2 s = ((drawHalf s).1.setWidth 32,
      { s with outs := s.outs ++ [.ioRead16 (BitVec.ofNat 32 (aligned .b2 a.toNat))],
               draws := s.draws + 1 }) := by
  rw [read2_io h1 h2, compose16, ioRead2_forwarded ha (align_div4 .b2 a), align_eq_ofNat]
  rfl

/-- The lower halfword is read first. -/
theorem read2_forwarded_b4 (k : AccessKind) :
    let q := BitVec.ofNat 32 (aligned .b4 a.toNat)
    read2 m k a .b4 s = ((drawHalf (drawHalf s).2).1 ++ (drawHalf s).1,
      { s with outs := s.outs ++ [.ioRead16 q, .ioRead16 (q + 2)], draws := s.draws + 2 }) := by
  rw [read2_io h1 h2, compose16, ioRead2_forwarded ha (align_div4 .b4 a),
    ioRead2_forwarded ha (align_b4_add2_div4 a), align_eq_ofNat]
  simp only [ioExtRead16, emit, drawHalf, drawWord, List.append_assoc]
  rfl

theorem write2_forwarded_b1 (b : Byte) :
    write2 m a .b1 (b.setWidth 32) s
      = .next { s with outs := s.outs ++ [.ioWrite16 (BitVec.ofNat 32 (aligned .b2 a.toNat))
          (if decide (a.toNat % 2 = 1) then b ++ 0#8 else 0#8 ++ b)
          (if decide (a.toNat % 2 = 1) then 0xFF00 else 0x00FF)] } := by
  have hb : (b.setWidth 32 : Word).setWidth 8 = b := BitVec.setWidth_setWidth_of_le b (by decide)
  rw [write2_io h1 h2, compose16W, byteData, byteMask, hb, getLsbD_zero_eq_odd, ← align_eq_ofNat]
  exact ioWrite2_forwarded ha (align_div4 .b2 a) _ _ s

theorem write2_forwarded_wide {w : Width} (hw : w = .b2 ∨ w = .b4) (v : Word) :
    write2 m a w (w.cut v) s = .next { s with outs := s.outs ++ ioWrites w a.toNat v } := by
  rw [write2_io h1 h2]
  obtain rfl | rfl := hw
  · have hv : (Width.b2.cut v).setWidth 16 = v.setWidth 16 :=
      BitVec.setWidth_setWidth_of_le (v.setWidth 16) (by decide)
    rw [compose16W, ioWrite2_forwarded ha (align_div4 .b2 a), hv, align_eq_ofNat]
    rfl
  · rw [compose16W, ioWrite2_forwarded ha (align_div4 .b4 a), bindR_next,
      ioWrite2_forwarded ha (align_b4_add2_div4 a), align_eq_ofNat, List.append_assoc, ioWrites,
      BitVec.ofNat_add]
    rfl

end

/-! ### The statement on forwarded accesses -/

/-- Settles O29: generation 1 by the address forwarded, generation 2 by the width. -/
theorem unownedIoIsForwarded : Obligations.UnownedIoIsForwarded := by
  refine ⟨fun s m k a v ha => ⟨fun h => ?_, fun h => ?_⟩, fun s m k a v h h1 h2 ha => ⟨?_, ?_, ?_, ?_⟩⟩
  · obtain ⟨h1, h2⟩ := ioAddr_range a
    have io := callAccess_forwarded1 h (.inl ⟨h1, h2, by rw [ownsIo_append, ha]; rfl⟩)
    refine ⟨(drawByte s).1, fun i hi => ?_, (io k v).2⟩
    rcases List.mem_cons.1 hi with rfl | hi
    · exact (io k v).1
    · obtain ⟨rfl, rfl⟩ : m = .cpu ∧ i = .gbIoForwardRead a := by simpa using hi
      exact (io .data v).1
  · exact ⟨(drawByte s).1, callAccess_forwarded1 h (.inr rfl) k v⟩
  · refine ⟨(drawHalf s).1, fun p hp => ?_⟩
    simp only [List.mem_cons, List.not_mem_nil, or_false] at hp
    rcases hp with rfl | rfl
    · exact (callRead_open2 h k a .b2).trans (by rw [read2_forwarded_b2 h1 h2 ha]; rfl)
    · exact (callRead_open2 h k a .b1).trans (by rw [read2_forwarded_b1 h1 h2 ha]; rfl)
  · refine ⟨(drawHalf (drawHalf s).2).1, (drawHalf s).1, (callRead_open2 h k a .b4).trans ?_⟩
    rw [read2_forwarded_b4 h1 h2 ha]
    rfl
  · exact (callWrite_open2 h a .b1 _).trans (write2_forwarded_b1 h1 h2 ha _)
  · intro w hw
    rw [exec_writeRow, callWrite_open2 h, write2_forwarded_wide h1 h2 ha hw]

end Sys2Proof.Machine
end

section
/-! PROOFS. Which parameters a block is built from (42_bank_controllers.md R262, 60_exceptions.md R609): the
checks of construction are the legality of the statements, and nothing but them refuses a construction
without a save file. -/
namespace Sys2Proof.Machine

open Sys2Proof.Claims

/-! ### Cartridge metadata (R262) -/

/-- The bank counts that are listed are the powers of two from 2 to 512. -/
theorem bankCountOk_iff {n max : Nat} (hm : max ≤ 512) :
    bankCountOk n max = true ↔ PowerOfTwo n ∧ 2 ≤ n ∧ n ≤ max := by
  simp only [bankCountOk, List.any_eq_true, Bool.and_eq_true, beq_iff_eq, decide_eq_true_eq]
  constructor
  · rintro ⟨m, hmem, rfl, hle⟩
    have hlist : ∀ m ∈ [2, 4, 8, 16, 32, 64, 128, 256, 512], m = 2 ^ Nat.log2 m ∧ 2 ≤ m := by decide
    obtain ⟨hpow, h2⟩ := hlist n hmem
    exact ⟨⟨_, hpow⟩, h2, hle⟩
  · rintro ⟨⟨k, rfl⟩, h2, hle⟩
    refine ⟨2 ^ k, ?_, rfl, hle⟩
    have hk : k ≤ 9 := (Nat.pow_le_pow_iff_right (by decide : 1 < 2)).1 (hle.trans hm)
    have h0 : k ≠ 0 := by rintro rfl; exact absurd h2 (by decide)
    interval_cases k <;> simp at h0 ⊢

theorem maxBanks_le (f : Family) : maxBanks f ≤ 512 := by cases f <;> decide

/-- A check `!p || q` reads "if p then q". -/
theorem not_or_iff_imp {p q : Bool} : (!p || q) = true ↔ (p = true → q = true) := by
  cases p <;> simp

theorem otherDevice_and_cartOk_iff {c : Cart} :
    c.otherDevice = false ∧ cartOk c = true ↔ LegalCart c := by
  simp only [cartOk, Bool.and_eq_true, bankCountOk_iff (maxBanks_le _), not_or_iff_imp, beq_iff_eq,
    LegalCart, ramSizeOk]
  cases c.family with
  | romOnly => simp [maxBanks]; grind
  | a | b | c => simp [maxBanks]; tauto
  | d => cases c.hasRumble <;> simp [maxBanks] <;> tauto

/-! ### Timing, boot ROM and the two generations (R609) -/

theorem timingOk_iff {t : Timing} : timingOk t = true ↔ LegalTiming t := by
  simp [timingOk, LegalTiming, and_assoc]

theorem bootOk_iff {b : Option Image} :
    bootOk b = true ↔ ∀ m, b = some m → m.size = 0x100 ∨ m.size = 0x900 := by
  cases b <;> simp [bootOk]

theorem refusal1_eq_none {c : Config} :
    refusal1 c = none ↔ cartOk c.cart = true ∧ bootOk c.boot = true := by
  unfold refusal1
  cases cartOk c.cart <;> cases bootOk c.boot <;> simp

theorem refusal2_eq_none {c : Config} :
    refusal2 c = none ↔ c.cgb = false ∧ c.bios.size = 0x4000 ∧ c.rom.size ≤ 0x02000000 := by
  unfold refusal2
  repeat' split
  all_goals simp_all

theorem constructionRefusal_eq_none {c : Config} : constructionRefusal c = none ↔
    c.cart.otherDevice = false ∧ LegalTiming c.timing
      ∧ (c.gen = .gen1 → refusal1 c = none) ∧ (c.gen = .gen2 → refusal2 c = none) := by
  rw [← timingOk_iff, constructionRefusal]
  cases c.cart.otherDevice <;> cases timingOk c.timing <;> cases c.gen <;> simp

/-! ### Construction -/

/-- A `load` of no file is refused nowhere before the first call (48_persistence.md R551, R562). -/
theorem callLoad_absent {s : State} (h : s.loadable = true) : ∃ t, callLoad .absent s = .next t := by
  unfold callLoad load1
  simp only [h, Bool.true_eq_false, if_false]
  repeat' split
  all_goals exact ⟨_, rfl⟩

theorem construct_of_legal {c : Config} (hc : constructionRefusal c = none) (h : HostIn) :
    ∃ s, construct c h .absent = .next s := by
  obtain ⟨t, ht⟩ := callLoad_absent (s := State.ofConfig c h) rfl
  exact ⟨afterCall t, by simp only [construct, hc, ht, bindR_next]⟩

theorem construct_of_refused {c : Config} {w : Construction} (hc : constructionRefusal c = some w)
    (h : HostIn) (f : SaveFile) : construct c h f = .refused (.construction w) := by
  simp only [construct, hc]

theorem construct_absent_iff {c : Config} {h : HostIn} :
    (∃ s, construct c h .absent = .next s) ↔ constructionRefusal c = none := by
  refine ⟨fun ⟨s, hs⟩ => ?_, fun hc => construct_of_legal hc h⟩
  cases hc : constructionRefusal c with
  | none => rfl
  | some w => cases (construct_of_refused hc h .absent).symm.trans hs

/-- Settles O14: a construction without a file fails exactly where the parameters are refused, and what is
refused is what the rules do not allow. -/
theorem constructionIsLegal : Obligations.ConstructionIsLegal := by
  intro c h
  rw [construct_absent_iff, constructionRefusal_eq_none]
  refine ⟨?_, fun g => ?_, fun g => ?_⟩
  · rw [← constructionRefusal_eq_none]
    cases hc : constructionRefusal c with
    | none => exact .inl rfl
    | some w => exact .inr fun f => ⟨w, construct_of_refused hc h f⟩
  · rw [← otherDevice_and_cartOk_iff, ← bootOk_iff]
    simp only [g, refusal1_eq_none]
    tauto
  · simp only [g, refusal2_eq_none]
    tauto

end Sys2Proof.Machine
end

section
/-! PROOFS. The control registers of the bank controllers (42_bank_controllers.md sections 3 to 9): what a
write of 0x0000 to 0x7FFF does on each family, and that it leaves the bank registers in range (R264, R266,
R297). -/
namespace Sys2Proof.Machine

open Sys2Proof.Safety Sys2Proof.Claims

/-! ### Addresses put together -/

theorem append_toNat {n m : Nat} (x : BitVec n) (a : BitVec m) :
    (x ++ a).toNat = a.toNat + x.toNat * 2 ^ m := by
  rw [BitVec.toNat_append, ← Nat.shiftLeft_add_eq_or_of_lt a.isLt, Nat.shiftLeft_eq, Nat.add_comm]

/-- The leading bits of an address say on which side of a window's end it lies. -/
theorem append_le_iff {n m : Nat} (x : BitVec n) (a : BitVec m) {j k : Nat} (h : j + 1 = k * 2 ^ m) :
    (x ++ a).toNat ≤ j ↔ x.toNat < k := by
  rw [← Nat.lt_succ_iff, Nat.succ_eq_add_one, h, ← Nat.div_lt_iff_lt_mul (Nat.two_pow_pos m),
    append_toNat, Nat.add_mul_div_right _ _ (Nat.two_pow_pos m), Nat.div_eq_of_lt a.isLt, Nat.zero_add]

/-! ### The register that an address selects (30_encoding.md R178) -/

/-- The windows of 0x2000 bytes. -/
theorem window_le_iff (x : BitVec 3) (a : BitVec 13) :
    ((x ++ a : Half) ≤ 0x1FFF ↔ x < 1) ∧ ((x ++ a : Half) ≤ 0x3FFF ↔ x < 2)
      ∧ ((x ++ a : Half) ≤ 0x5FFF ↔ x < 3) :=
  ⟨append_le_iff x a rfl, append_le_iff x a rfl, append_le_iff x a rfl⟩

section
variable (x : BitVec 3) (a : BitVec 13) (v : Byte) (s : State)

theorem writeControlA_append :
    writeControlA (x ++ a) v s
      = if x < 1 then ramgA v s else if x < 2 then rombA v s else if x < 3 then rambA v s
        else modeA v s := by
  simp only [writeControlA, window_le_iff x a]

theorem writeControlC_append :
    writeControlC (x ++ a) v s
      = if x < 1 then ramgC v s else if x < 2 then rombC v s else if x < 3 then rambC v s
        else latchC v s := by
  simp only [writeControlC, window_le_iff x a]

end

theorem writeControlD_append (x : BitVec 4) (a : BitVec 12) (v : Byte) (s : State) :
    writeControlD (x ++ a) v s
      = if x < 2 then ramgD v s else if x < 3 then romb0D v s else if x < 4 then romb1D v s
        else if x < 6 then rambD v s else s := by
  have h1 : (x ++ a : Half) ≤ 0x1FFF ↔ x < 2 := append_le_iff x a rfl
  have h2 : (x ++ a : Half) ≤ 0x2FFF ↔ x < 3 := append_le_iff x a rfl
  have h3 : (x ++ a : Half) ≤ 0x3FFF ↔ x < 4 := append_le_iff x a rfl
  have h4 : (x ++ a : Half) ≤ 0x5FFF ↔ x < 6 := append_le_iff x a rfl
  simp only [writeControlD, h1, h2, h3, h4]

/-- The leading three bits do not tell the two ROM-bank registers of Family D apart. -/
theorem writeControlD_append3 (x : BitVec 3) (a : BitVec 13) (v : Byte) (s : State) :
    writeControlD (x ++ a) v s
      = if x < 1 then ramgD v s
        else if x < 2 then (if (x ++ a : Half) ≤ 0x2FFF then romb0D v s else romb1D v s)
        else if x < 3 then rambD v s else s := by
  obtain ⟨-, hlow, -⟩ := window_le_iff x a
  have h2 : (x ++ a : Half) ≤ 0x2FFF → x < 2 := fun h => hlow.1 (BitVec.le_trans h (by decide))
  simp only [writeControlD, window_le_iff x a]
  by_cases hx : x < 2
  · simp only [hx, if_true]
  · simp only [hx, mt h2 hx, if_false]

theorem lowB_le (hi : BitVec 5) (b : BitVec 1) (lo : Byte) : (0#2 ++ hi ++ b ++ lo : Half) ≤ 0x3FFF :=
  (append_le_iff (0#2 ++ hi ++ b) lo (k := 64) rfl).2 <| Nat.lt_succ_iff.2 <|
    (append_le_iff (0#2 ++ hi) b (k := 32) rfl).2 <| Nat.lt_succ_iff.2 <|
      (append_le_iff 0#2 hi (k := 1) rfl).2 (by decide)

/-- Of Family B's address bit 8 alone counts (R277). -/
theorem writeControlB_low (hi : BitVec 5) (b : BitVec 1) (lo v : Byte) (s : State) :
    writeControlB (0#2 ++ hi ++ b ++ lo) v s = if b = 1 then rombB v s else ramgB v s := by
  have hbit : (0#2 ++ hi ++ b ++ lo : Half).getLsbD 8 = decide (b = 1) := by
    have hb : ∀ b : BitVec 1, b.getLsbD 0 = decide (b = 1) := by decide
    rw [BitVec.getLsbD_append, if_neg (by decide), BitVec.getLsbD_append, if_pos (by decide)]
    exact hb b
  rw [writeControlB, if_pos (lowB_le hi b lo), hbit]
  simp only [decide_eq_true_eq]

theorem writeControlB_high (a : BitVec 14) (v : Byte) (s : State) :
    writeControlB (1#2 ++ a) v s = s := by
  have h1 : (1#2 ++ a : Half) ≤ 0x3FFF ↔ 1#2 < 1 := append_le_iff 1#2 a rfl
  rw [writeControlB, if_neg (mt h1.1 (by decide))]

/-- A control write of the CPU that reaches its location (41_bus.md R224). -/
theorem cpuWrite8_control {s : State} {a : Half} (h : Open1 s a) (ha : a ≤ 0x7FFF) (v : Byte) :
    cpuWrite8 (gbAddr a) v s = .next (writeControl a v s) := by
  obtain ⟨g, -, hs, hh⟩ := h
  rw [cpuWrite8_open g (cpuStalled_of_not hs) hh, echo_low (by bv_omega), regionWrite1_rom ha]

section
variable {s : State} {x : BitVec 3} {a : BitVec 13} (h : Open1 s (x ++ a)) (hx : x < 4) (v : Byte)
include h hx

theorem cpuWrite8_window : cpuWrite8 (gbAddr (x ++ a)) v s = .next (writeControl (x ++ a) v s) :=
  cpuWrite8_control h ((append_le_iff x a (k := 4) rfl).2 hx) v

theorem cpuWrite8_familyA (hf : s.cfg.cart.family = .a) :
    cpuWrite8 (gbAddr (x ++ a)) v s
      = .next (if x < 1 then ramgA v s else if x < 2 then rombA v s else if x < 3 then rambA v s
          else modeA v s) := by
  rw [cpuWrite8_window h hx, writeControl, hf, ← writeControlA_append]

theorem cpuWrite8_familyC (hf : s.cfg.cart.family = .c) :
    cpuWrite8 (gbAddr (x ++ a)) v s
      = .next (if x < 1 then ramgC v s else if x < 2 then rombC v s else if x < 3 then rambC v s
          else latchC v s) := by
  rw [cpuWrite8_window h hx, writeControl, hf, ← writeControlC_append]

theorem cpuWrite8_familyD (hx1 : x ≠ 1) (hf : s.cfg.cart.family = .d) :
    cpuWrite8 (gbAddr (x ++ a)) v s
      = .next (if x < 1 then ramgD v s else if x < 3 then rambD v s else s) := by
  have h2 : x < 2 → x < 1 := by bv_omega
  rw [cpuWrite8_window h hx, writeControl, hf]
  simp only [writeControlD_append3]
  by_cases h1 : x < 1
  · simp only [h1, if_true]
  · simp only [h1, mt h2 h1, if_false]

end

theorem cpuWrite8_romBankD {s : State} {x : BitVec 4} {b : BitVec 12} (h : Open1 s (x ++ b)) (h2 : 2 ≤ x)
    (h4 : x < 4) (v : Byte) (hf : s.cfg.cart.family = .d) :
    cpuWrite8 (gbAddr (x ++ b)) v s = .next (if x < 3 then romb0D v s else romb1D v s) := by
  rw [cpuWrite8_control h ((append_le_iff x b (k := 8) rfl).2 (Nat.lt_trans h4 (by decide))),
    writeControl, hf]
  simp only [writeControlD_append]
  rw [if_neg (BitVec.not_lt.2 h2), if_pos h4]

/-! ### The registers, in the words of the statements -/

/-- An enable register, written where its device is there (R274, R281, R288). -/
theorem ite_setBank_ramEnabled (p : Prop) [Decidable p] (v : Byte) (s : State) :
    (if p then setBank { s.g1.bank with ramEnabled := enablesRam v } s else s)
      = with1 s { s.g1 with
          bank.ramEnabled := if p then decide (v &&& 0x0F = 0x0A) else s.g1.bank.ramEnabled } := by
  split <;> rfl

theorem ramgA_eq (v : Byte) (s : State) :
    ramgA v s = with1 s { s.g1 with bank.ramEnabled :=
      if 0 < s.cfg.cart.ramSize then decide (v &&& 0x0F = 0x0A) else s.g1.bank.ramEnabled } :=
  ite_setBank_ramEnabled _ v s

theorem ramgC_eq (v : Byte) (s : State) :
    ramgC v s = with1 s { s.g1 with bank.ramEnabled :=
      if 0 < s.cfg.cart.ramSize ∨ s.cfg.cart.hasRtc = true then decide (v &&& 0x0F = 0x0A)
      else s.g1.bank.ramEnabled } :=
  ite_setBank_ramEnabled _ v s

theorem ramgD_eq (v : Byte) (s : State) :
    ramgD v s = with1 s { s.g1 with bank.ramEnabled :=
      if 0 < s.cfg.cart.ramSize then decide (v &&& 0x0F = 0x0A) else s.g1.bank.ramEnabled } :=
  ite_setBank_ramEnabled _ v s

/-- A ROM-bank register of the bits `m` (R271, R277, R282). -/
theorem setBank_promote (v m : Byte) (s : State) :
    setBank { s.g1.bank with romBank := promote (v &&& m) } s
      = with1 s { s.g1 with bank.romBank :=
          if v &&& m = 0 then 1 else v.setWidth 16 &&& m.setWidth 16 } := by
  rw [promote, BitVec.setWidth_and]
  rfl

theorem modeA_eq (v : Byte) (s : State) :
    modeA v s = with1 s { s.g1 with bank.mode := BitVec.ofBool (v.getLsbD 0) } := by
  rw [modeA, BitVec.setWidth_one]
  rfl

theorem rambC_eq (v : Byte) (s : State) :
    rambC v s = with1 s { s.g1 with bank.ramBank :=
      if 0 < s.cfg.cart.ramSize ∨ s.cfg.cart.hasRtc = true then v else s.g1.bank.ramBank } := by
  unfold rambC
  split <;> rfl

theorem setWidth_hiByte (x : Half) : (hiByte x).setWidth 16 <<< 8 = x &&& 0xFF00 := by
  apply BitVec.eq_of_getLsbD_eq
  intro i hi
  have hm : ∀ i < 16, (0xFF00 : Half).getLsbD i = decide (8 ≤ i) := by decide
  have h8 : i - 8 < 8 := by omega
  rw [BitVec.getLsbD_and, hm i hi]
  simp only [hiByte, BitVec.getLsbD_shiftLeft, BitVec.getLsbD_setWidth, BitVec.getLsbD_extractLsb']
  by_cases h : 8 ≤ i
  · simp [h, hi, h8, Nat.not_lt.2 h, h8.trans]
  · simp [h]

theorem setWidth_loByte (x : Half) : (loByte x).setWidth 16 = x &&& 0x00FF := by
  apply BitVec.eq_of_toNat_eq
  simp only [loByte, BitVec.toNat_setWidth, BitVec.toNat_and]
  exact (Nat.mod_eq_of_lt (by omega)).trans (Nat.and_two_pow_sub_one_eq_mod _ 8).symm

/-- Two bytes put together, as the statements write them. -/
theorem append_eq_shift_or (x y : Byte) :
    (x ++ y : Half) = (x.setWidth 16 <<< 8) ||| y.setWidth 16 := by
  rw [← BitVec.setWidth_append_eq_shiftLeft_setWidth_or]
  exact (BitVec.setWidth_eq _).symm

theorem romb0D_eq (v : Byte) (s : State) :
    romb0D v s = with1 s { s.g1 with bank.romBank :=
      (s.g1.bank.romBank &&& 0xFF00) ||| v.setWidth 16 } := by
  rw [romb0D, append_eq_shift_or, setWidth_hiByte]
  rfl

theorem romb1D_eq (v : Byte) (s : State) :
    romb1D v s = with1 s { s.g1 with bank.romBank :=
      (v.setWidth 16 <<< 8) ||| (s.g1.bank.romBank &&& 0x00FF) } := by
  rw [romb1D, append_eq_shift_or, setWidth_loByte]
  rfl

theorem rambD_eq (v : Byte) (s : State) :
    rambD v s
      = if s.cfg.cart.hasRumble then
          with1 s { s.g1 with
            bank.rumble := BitVec.ofBool (v.getLsbD 3), rumble := v.getLsbD 3,
            bank.ramBank := if 0 < s.cfg.cart.ramSize then v &&& 0x07 else s.g1.bank.ramBank }
        else with1 s { s.g1 with
          bank.ramBank := if 0 < s.cfg.cart.ramSize then v &&& 0x0F else s.g1.bank.ramBank } := by
  have hv : ∀ v : Byte, v.extractLsb' 3 1 = BitVec.ofBool (v.getLsbD 3) := by decide
  rw [rambD, hv]
  rfl

/-! ### The statements on the families without a clock -/

/-- Settles O30: the leading bits select the register, and each register is a field. -/
theorem familyAControl : Obligations.FamilyAControl := by
  intro s a v hf
  rw [← ramgA_eq, ← modeA_eq]
  exact ⟨fun h => cpuWrite8_familyA h (by decide) v hf,
    fun h => (cpuWrite8_familyA h (by decide) v hf).trans (congrArg _ (setBank_promote v 0x1F s)),
    fun h => cpuWrite8_familyA h (by decide) v hf,
    fun h => cpuWrite8_familyA h (by decide) v hf⟩

/-- Settles O31: bit 8 selects the register of Family B; the other writes reach none. -/
theorem familyBAndRomOnlyControl : Obligations.FamilyBAndRomOnlyControl := by
  intro s hi lo a x v
  have low (b : BitVec 1) (hf : s.cfg.cart.family = .b) (h : Open1 s (0#2 ++ hi ++ b ++ lo)) :
      cpuWrite8 (gbAddr (0#2 ++ hi ++ b ++ lo)) v s = .next (if b = 1 then rombB v s else ramgB v s) := by
    have hlow : (0#2 ++ hi ++ b ++ lo : Half) ≤ 0x3FFF := lowB_le hi b lo
    rw [cpuWrite8_control h (BitVec.le_trans hlow (by decide)), writeControl, hf, ← writeControlB_low]
  refine ⟨low 0, fun hf h => (low 1 hf h).trans (congrArg _ (setBank_promote v 0x0F s)),
    fun hf h => ?_, fun hf h => ?_⟩
  · refine (cpuWrite8_control h ((append_le_iff 1#2 a (k := 2) rfl).2 (by decide)) v).trans ?_
    rw [writeControl, hf]
    exact congrArg _ (writeControlB_high a v s)
  · refine (cpuWrite8_control h ((append_le_iff 0#1 x (k := 1) rfl).2 (by decide)) v).trans ?_
    rw [writeControl, hf]

/-- Settles O33: the leading bits select the register; of the bank registers the low and the high byte are
fields of their own. -/
theorem familyDControl : Obligations.FamilyDControl := by
  intro s a b v hf
  rw [← ramgD_eq, ← romb0D_eq, ← romb1D_eq, ← rambD_eq]
  exact ⟨fun h => cpuWrite8_familyD h (by decide) v (by decide) hf,
    fun h => cpuWrite8_romBankD h (by decide) (by decide) v hf,
    fun h => cpuWrite8_romBankD h (by decide) (by decide) v hf,
    fun h => cpuWrite8_familyD h (by decide) v (by decide) hf,
    fun h => cpuWrite8_familyD h (by decide) v (by decide) hf⟩

/-! ### The latch strobe of Family C (45_rtc.md R415, R416) -/

/-- `Normalize()` takes whole cycles of 512 days off the elapsed time. -/
theorem elapsed_rtcNormalize (now : Int) (r : Rtc) :
    ∃ n, elapsed (rtcNormalize now r) now = elapsed r now - 86400 * 512 * n := by
  unfold rtcNormalize
  split
  · refine ⟨rtcDayCount r now / 512, ?_⟩
    simp only [elapsed]
    ring
  · exact ⟨0, by ring⟩

/-- A unit whose count ends with the cycle of 512 days is the same before and after `Normalize()`. -/
theorem unitOf_rtcNormalize (now : Int) (r : Rtc) {m c : Int} (hm : m ≠ 0) (hc : m * c ∣ 86400 * 512) :
    unitOf (elapsed (rtcNormalize now r) now) m c = unitOf (elapsed r now) m c := by
  obtain ⟨n, hn⟩ := elapsed_rtcNormalize now r
  obtain ⟨d, hd⟩ := hc
  have : elapsed r now - 86400 * 512 * n = elapsed r now + m * (c * -(d * n)) := by
    rw [hd]
    ring
  rw [hn, this, unitOf, Int.add_mul_ediv_left _ _ hm, Int.add_mul_emod_self_left, unitOf]

theorem rtcSnapshot_rtcNormalize (now : Int) (r : Rtc) :
    rtcSnapshot (rtcNormalize now r) now = rtcSnapshot r now := by
  simp only [rtcSnapshot, rtcSeconds, rtcMinutes, rtcHours, rtcDays]
  rw [unitOf_rtcNormalize, unitOf_rtcNormalize, unitOf_rtcNormalize, unitOf_rtcNormalize] <;> decide

theorem rtcNormalize_eq (s : State) :
    rtcNormalize (nowOf s) s.g1.rtc = { s.g1.rtc with
      carry := s.g1.rtc.carry || decide (512 ≤ elapsedOf s / 86400),
      reference := normalizedReference s } := by
  have he : rtcDayCount s.g1.rtc (nowOf s) = elapsedOf s / 86400 := rfl
  unfold rtcNormalize normalizedReference
  rw [he]
  split
  · rename_i h
    simp only [h, decide_true, Bool.or_true]
  · rename_i h
    simp only [h, decide_false, Bool.or_false, Int.add_zero]

theorem latchC_eq (v : Byte) {s : State} (hr : s.cfg.cart.hasRtc = true) :
    latchC v s = with1 s { s.g1 with
      bank.latchLast := v,
      rtc := if s.g1.bank.latchLast = 0x00 ∧ v = 0x01 then rtcLatch (nowOf s) s.g1.rtc else s.g1.rtc } := by
  rw [latchC, if_pos hr]
  rfl

/-- Settles O32: the leading bits select the register; a strobe of 0x01 after 0x00 latches the clock, whose
units `Normalize()` does not change. -/
theorem familyCControl : Obligations.FamilyCControl := by
  intro s a v hf
  rw [← ramgC_eq, ← rambC_eq]
  refine ⟨fun h => cpuWrite8_familyC h (by decide) v hf,
    fun h => (cpuWrite8_familyC h (by decide) v hf).trans (congrArg _ (setBank_promote v 0x7F s)),
    fun h => cpuWrite8_familyC h (by decide) v hf, fun h => ?_⟩
  have hl : exec (.cLatch a v) s = .next (latchC v s) := cpuWrite8_familyC h (by decide) v hf
  rw [hl]
  refine ⟨fun hr => ?_, fun hr hn => ?_, fun hr h0 h1 => ?_⟩
  · rw [latchC, hr]
    rfl
  · rw [latchC_eq v hr, if_neg hn]
  · rw [latchC_eq v hr, if_pos ⟨h0, h1⟩]
    refine ⟨_, rfl, rtcSnapshot_rtcNormalize _ _, ?_⟩
    rw [rtcLatch, rtcNormalize_eq]
    exact ⟨rfl, rfl, rfl, rfl⟩

end Sys2Proof.Machine
end

section
/-! PROOFS. Every step keeps the bank registers in the range of their family and the rumble output equal to
the rumble bit (42_bank_controllers.md R264, R266, R297): only a control write changes them. -/
namespace Sys2Proof.Machine

open Sys2Proof.Safety

/-! ### The registers in range -/

/-- The range of the bank registers of a family (R264, R266). -/
def bankInRange (f : Family) (b : BankState) : Prop :=
  match f with
  | .romOnly => True
  | .a => 1 ≤ b.romBank ∧ b.romBank ≤ 31 ∧ b.ramBank ≤ 3
  | .b => 1 ≤ b.romBank ∧ b.romBank ≤ 15
  | .c => 1 ≤ b.romBank ∧ b.romBank ≤ 127
  | .d => b.ramBank ≤ 15

theorem bankOk_iff {s : State} : BankOk s ↔
    bankInRange s.cfg.cart.family s.g1.bank ∧ (s.g1.rumble = true ↔ s.g1.bank.rumble = 1) := by
  unfold BankOk bankInRange
  cases s.cfg.cart.family <;> simp

theorem and_le_byte (v m : Byte) : v &&& m ≤ m := by
  rw [BitVec.le_def, BitVec.toNat_and]
  exact Nat.and_le_right

/-- A promoted bank number is at least 1 and has no bit outside the register's (R271, R277, R282). -/
theorem promote_range (v : Byte) {m : Byte} (hm : 1 ≤ m) :
    1 ≤ promote (v &&& m) ∧ promote (v &&& m) ≤ m.setWidth 16 := by
  have h := and_le_byte v m
  unfold promote
  split <;> bv_omega

/-! ### Control writes -/

section
variable {s : State} (hs : BankOk s)
include hs

theorem bankOk_setBank {b : BankState} (hr : b.rumble = s.g1.bank.rumble)
    (hb : bankInRange s.cfg.cart.family s.g1.bank → bankInRange s.cfg.cart.family b) :
    BankOk (setBank b s) := by
  obtain ⟨hrange, hrumble⟩ := bankOk_iff.1 hs
  exact bankOk_iff.2 ⟨hb hrange, by rw [setBank_g1_rumble, setBank_g1_bank, hr, hrumble]⟩

theorem bankOk_writeControlA (hf : s.cfg.cart.family = .a) (a : Half) (v : Byte) :
    BankOk (writeControlA a v s) := by
  unfold writeControlA ramgA rombA rambA modeA
  repeat' split
  · exact bankOk_setBank hs rfl id
  · exact hs
  · refine bankOk_setBank hs rfl ?_
    rw [hf]
    exact fun ⟨_, _, h3⟩ => ⟨(promote_range v (by decide)).1, (promote_range v (by decide)).2, h3⟩
  · refine bankOk_setBank hs rfl ?_
    rw [hf]
    exact fun ⟨h1, h2, _⟩ => ⟨h1, h2, and_le_byte v 3⟩
  · exact bankOk_setBank hs rfl id

theorem bankOk_writeControlB (hf : s.cfg.cart.family = .b) (a : Half) (v : Byte) :
    BankOk (writeControlB a v s) := by
  unfold writeControlB ramgB rombB
  repeat' split
  · refine bankOk_setBank hs rfl ?_
    rw [hf]
    exact fun _ => promote_range v (by decide)
  · exact bankOk_setBank hs rfl id
  · exact hs

theorem bankOk_writeControlC (hf : s.cfg.cart.family = .c) (a : Half) (v : Byte) :
    BankOk (writeControlC a v s) := by
  unfold writeControlC ramgC rombC rambC latchC
  repeat' split
  · exact bankOk_setBank hs rfl id
  · exact hs
  · refine bankOk_setBank hs rfl ?_
    rw [hf]
    exact fun _ => promote_range v (by decide)
  · refine bankOk_setBank hs rfl ?_
    rw [hf]
    exact id
  · exact hs
  · exact bankOk_setBank (s := setRtc (strobed v s) s) hs rfl id
  · exact hs

theorem bankOk_rambD (hf : s.cfg.cart.family = .d) (v : Byte) : BankOk (rambD v s) := by
  have bit (b : Bool) : b = true ↔ BitVec.ofBool b = 1 := by cases b <;> decide
  have written (n : Byte) (hn : n ≤ 15) :
      bankInRange s.cfg.cart.family
        { s.g1.bank with ramBank := if 0 < s.cfg.cart.ramSize then n else s.g1.bank.ramBank } := by
    obtain ⟨-, -, -, h, -⟩ := hs
    rw [hf]
    change (if 0 < s.cfg.cart.ramSize then n else s.g1.bank.ramBank) ≤ 15
    split <;> [exact hn; exact h hf]
  rw [rambD_eq]
  split
  · refine bankOk_iff.2 ⟨?_, bit _⟩
    have h7 : v &&& 0x07 ≤ 15 := BitVec.le_trans (and_le_byte v 0x07) (by decide)
    exact hf ▸ written _ h7
  · exact bankOk_setBank hs rfl fun _ => written _ (and_le_byte v 0x0F)

theorem bankOk_writeControlD (hf : s.cfg.cart.family = .d) (a : Half) (v : Byte) :
    BankOk (writeControlD a v s) := by
  have romBank (r : Half) : BankOk (setBank { s.g1.bank with romBank := r } s) :=
    bankOk_setBank hs rfl (by rw [hf]; exact id)
  unfold writeControlD ramgD
  repeat' split
  · exact bankOk_setBank hs rfl id
  · exact hs
  · exact romBank _
  · exact romBank _
  · exact bankOk_rambD hs hf v
  · exact hs

theorem bankOk_writeControl (a : Half) (v : Byte) : BankOk (writeControl a v s) := by
  unfold writeControl
  split
  · exact hs
  · rename_i hf; exact bankOk_writeControlA hs hf a v
  · rename_i hf; exact bankOk_writeControlB hs hf a v
  · rename_i hf; exact bankOk_writeControlC hs hf a v
  · rename_i hf; exact bankOk_writeControlD hs hf a v

end

/-! ### Every move -/

/-- The bank registers and the rumble output. -/
def bankAndRumble (s : State) : BankState × Bool := (s.g1.bank, s.g1.rumble)

theorem bankOk_of_bank_eq {s t : State} (hc : t.cfg = s.cfg) (h : bankAndRumble t = bankAndRumble s)
    (hs : BankOk s) : BankOk t := by
  obtain ⟨hb, hr⟩ := Prod.mk.injEq .. ▸ h
  rw [BankOk, hc, hb, hr]
  exact hs

/-- Only a control write changes the bank registers or the rumble output. -/
theorem Move.bankAndRumble_cases {s t : State} (h : Move s t) :
    bankAndRumble t = bankAndRumble s ∨ ∃ a v, t = writeControl a v s := by
  cases h with
  | control a v _ _ => exact .inr ⟨a, v, rfl⟩
  | nvs1 o v _ _ => exact .inl (by rw [writeNvs1_frame]; rfl)
  | dmaReg v _ _ => exact .inl (by rw [writeDma_frame]; rfl)
  | vbk v _ _ => exact .inl (by rw [writeVbk_frame]; rfl)
  | boot v _ _ => exact .inl (by unfold writeBoot; split <;> rfl)
  | svbk v _ _ => exact .inl (by rw [writeSvbk_frame]; rfl)
  | vdmaReg a v _ _ _ h => exact .inl (by rw [writeVdmaReg_frame h]; rfl)
  | hblank _ _ => exact .inl (by rw [vdmaHBlank_frame]; rfl)
  | oamUnit b _ _ _ => exact .inl (by rw [oamNext_frame]; rfl)
  | normalize _ _ => exact .inl (by rw [normalizedFor_frame]; rfl)
  | pal a w v _ _ => exact .inl (by rw [writePal_frame]; rfl)
  | vram2 a w v _ _ => exact .inl (by rw [writeVram2_frame]; rfl)
  | oam2 a w v _ _ => exact .inl (by rw [writeOam2_frame]; rfl)
  | storage o v _ _ _ h => exact .inl (by rw [storageWriteByte_frame h]; rfl)
  | sniffStorage o v _ _ _ => exact .inl (by rw [sniffStorage_frame]; rfl)
  | appendBit b _ _ => exact .inl (by rw [appendBit_frame]; rfl)
  | endStream _ _ => exact .inl (by rw [endStream_frame]; rfl)
  | unitEnd k c₀ _ _ => exact .inl (by rw [bankAndRumble, afterUnit_g1]; rfl)
  | rearm k _ _ => exact .inl (by rw [bankAndRumble, rearm_g1]; rfl)
  | load f _ _ h => exact .inl (by rw [callLoad_frame h]; rfl)
  | _ => exact .inl rfl

theorem Move.bankOk {s t : State} (h : Move s t) (hs : BankOk s) : BankOk t := by
  obtain hb | ⟨a, v, rfl⟩ := h.bankAndRumble_cases
  · exact bankOk_of_bank_eq h.cfg hb hs
  · exact bankOk_writeControl hs a v

/-- Settles O6: a control write keeps each register in range, and no other move changes one. -/
theorem stepKeepsBankRanges : Obligations.StepKeepsBankRanges :=
  fun _ _ hs h => step_keeps (fun _ _ => Move.bankOk) (fun _ _ _ _ hs => hs) (fun _ hs => hs) h hs

end Sys2Proof.Machine
end

section
/-! PROOFS. The windows of the cartridge: what a read of 0x0000 to 0x7FFF gives (42_bank_controllers.md R268,
R270, R275, R279, R285, R293; 41_bus.md R221), and a read or a write of 0xA000 to 0xBFFF where no clock
register is shown (R276, R280, R286, R287, R293, R305). -/
namespace Sys2Proof.Machine

open Sys2Proof.Safety Sys2Proof.Claims

theorem legalCart_of_open1 {s : State} {a : Half} (h : Open1 s a) : LegalCart s.cfg.cart := by
  obtain ⟨hd, -, h1, -⟩ := constructionRefusal_eq_none.1 h.2.1
  exact otherDevice_and_cartOk_iff.1 ⟨hd, (refusal1_eq_none.1 (h1 h.1)).1⟩

/-- A mask of all lower bits of a power of two is the remainder (R267). -/
theorem and_sub_one_eq_mod {n : Nat} (h : PowerOfTwo n) (x : Nat) : x &&& (n - 1) = x % n := by
  obtain ⟨k, rfl⟩ := h
  exact Nat.and_two_pow_sub_one_eq_mod x k

/-- The last `k` bits of an address. -/
theorem and_toNat_eq_mod {a m : Half} (k : Nat) (hm : m.toNat = 2 ^ k - 1) :
    (a &&& m).toNat = a.toNat % 2 ^ k := by
  rw [BitVec.toNat_and, hm, Nat.and_two_pow_sub_one_eq_mod]

/-! ### The boot ROM and the ROM window -/

theorem bootOverlay_eq_some {s : State} {b : Half} {m : Image} :
    bootOverlay s b = some m ↔ s.cfg.boot = some m ∧ s.g1.bootEnabled = true ∧ b.toNat < m.size
      ∧ ¬ (0x100 ≤ b.toNat ∧ b.toNat ≤ 0x1FF) := by
  have hr : (0x0100 ≤ b ∧ b ≤ 0x01FF) ↔ 0x100 ≤ b.toNat ∧ b.toNat ≤ 0x1FF := Iff.rfl
  unfold bootOverlay
  cases s.cfg.boot with
  | none => simp
  | some x =>
    simp only [hr, Option.some.injEq, Option.ite_none_right_eq_some]
    constructor
    · rintro ⟨h, rfl⟩
      exact ⟨rfl, h⟩
    · rintro ⟨rfl, h⟩
      exact ⟨h, rfl⟩

theorem overlaid_iff {s : State} {b : Half} : Overlaid s b.toNat ↔ ∃ m, bootOverlay s b = some m := by
  simp only [bootOverlay_eq_some, Overlaid, ← exists_and_left]
  exact exists_congr fun _ => and_left_comm

section
variable {s : State} {a : Half}

theorem romOffset_eq (hl : LegalCart s.cfg.cart) (b : Nat) :
    romOffset s.cfg.cart b a = effBank s.cfg.cart b * 0x4000 + a.toNat % 0x4000 := by
  obtain ⟨-, hpow, -⟩ := hl
  rw [romOffset, effRom, and_sub_one_eq_mod hpow, and_toNat_eq_mod 14 rfl, effBank]
  rfl

theorem mapRomPinned_eq (hl : LegalCart s.cfg.cart) (ha : a ≤ 0x7FFF) :
    mapRomPinned s.cfg.cart s.g1.bank a
      = if a.toNat ≤ 0x3FFF then a.toNat
        else effBank s.cfg.cart s.g1.bank.romBank.toNat * 0x4000 + (a.toNat - 0x4000) := by
  have hle : a ≤ 0x3FFF ↔ a.toNat ≤ 0x3FFF := Iff.rfl
  simp only [mapRomPinned, romOffset_eq hl, hle]
  split
  · rfl
  · rw [show a.toNat % 0x4000 = a.toNat - 0x4000 by bv_omega]

/-- The high register of Family A stands above the five bits of the low one (R275). -/
theorem mapRomA_eq (hl : LegalCart s.cfg.cart) (ha : a ≤ 0x7FFF) (hb : s.g1.bank.romBank ≤ 31) :
    mapRomA s.cfg.cart s.g1.bank a
      = if a.toNat ≤ 0x3FFF then
          effBank s.cfg.cart (if s.g1.bank.mode = 1 then s.g1.bank.ramBank.toNat * 32 else 0) * 0x4000
            + a.toNat
        else effBank s.cfg.cart (s.g1.bank.ramBank.toNat * 32 + s.g1.bank.romBank.toNat) * 0x4000
          + (a.toNat - 0x4000) := by
  have hle : a ≤ 0x3FFF ↔ a.toNat ≤ 0x3FFF := Iff.rfl
  have hhigh : s.g1.bank.ramBank.toNat <<< 5 = s.g1.bank.ramBank.toNat * 32 := Nat.shiftLeft_eq _ _
  have hboth : s.g1.bank.ramBank.toNat <<< 5 ||| s.g1.bank.romBank.toNat
      = s.g1.bank.ramBank.toNat * 32 + s.g1.bank.romBank.toNat := by
    rw [← Nat.shiftLeft_add_eq_or_of_lt (Nat.lt_succ_of_le hb), hhigh]
  simp only [mapRomA, bankA, romOffset_eq hl, hle, hboth]
  rw [hhigh]
  split
  · rw [Nat.mod_eq_of_lt (by omega)]
  · rw [show a.toNat % 0x4000 = a.toNat - 0x4000 by bv_omega]

theorem mapRom_eq (hl : LegalCart s.cfg.cart) (hb : BankOk s) (ha : a ≤ 0x7FFF) :
    mapRom s.cfg.cart s.g1.bank a = romOffsetOf s a.toNat := by
  unfold mapRom romOffsetOf
  cases hf : s.cfg.cart.family with
  | romOnly => rfl
  | a =>
    obtain ⟨hA, -⟩ := hb
    obtain ⟨-, hrom, -⟩ := hA hf
    exact mapRomA_eq hl ha hrom
  | b | c | d => exact mapRomPinned_eq hl ha

/-- A CPU read of the ROM window: the boot ROM's byte where it covers the address, else the ROM's. -/
theorem cpuRead8_rom (h : Open1 s a) (hb : BankOk s) (ha : a ≤ 0x7FFF) {v : Byte}
    (hrom : ¬ Overlaid s a.toNat → v = s.cfg.rom.read (romOffsetOf s a.toNat))
    (hboot : Overlaid s a.toNat → ∃ m, s.cfg.boot = some m ∧ v = m.read a.toNat) :
    cpuRead8 (gbAddr a) s = .next (gave (byte v) s) := by
  have hread : openRead1 a s = (v, s) := by
    rw [openRead1, echo_low (by bv_omega)]
    cases ho : bootOverlay s a with
    | some m =>
      obtain ⟨m', hm', rfl⟩ := hboot (overlaid_iff.2 ⟨m, ho⟩)
      obtain rfl : m' = m := Option.some.inj (hm'.symm.trans (bootOverlay_eq_some.1 ho).1)
      rfl
    | none =>
      have hn : ¬ Overlaid s a.toNat := fun hn => by
        obtain ⟨m, hm⟩ := overlaid_iff.1 hn
        cases ho.symm.trans hm
      rw [hrom hn, ← mapRom_eq (legalCart_of_open1 h) hb ha]
      exact regionRead1_rom ha
  rw [cpuRead8, callRead_open1 (open1By_of_open1 h), hread]
  rfl

end

/-- An address of the ROM window by its half. -/
theorem append_split (y : BitVec 1) (x : BitVec 14) :
    (0#1 ++ (y ++ x) : Half) = (0#1 ++ y : BitVec 2) ++ x := by
  apply BitVec.eq_of_toNat_eq
  rw [append_toNat, append_toNat, append_toNat, append_toNat]
  simp

/-- Settles O34: every row is the read of its address. -/
theorem romWindowRead : Obligations.RomWindowRead := by
  intro s a h hb v hrom hboot
  have ha : (0#1 ++ a : Half) ≤ 0x7FFF := (append_le_iff 0#1 a (k := 1) rfl).2 (by decide)
  have hn : (0#1 ++ a : Half).toNat = a.toNat := (append_toNat 0#1 a).trans (by simp)
  have read : cpuRead8 (gbAddr (0#1 ++ a)) s = .next (gave (byte v) s) :=
    cpuRead8_rom h hb ha (by rw [hn]; exact hrom) (by rw [hn]; exact hboot)
  refine ⟨read, read, read, read, ?_, ?_⟩
  · rintro x rfl
    rwa [append_split] at read
  · rintro x rfl
    rwa [append_split] at read

/-! ### The RAM window -/

/-- The legal RAM sizes are powers of two (R262); Family B's is ignored. -/
theorem powerOfTwo_ramSize {c : Cart} (hl : LegalCart c) (hf : c.family ≠ .b) (h0 : c.ramSize ≠ 0) :
    PowerOfTwo c.ramSize := by
  have sizes : ∀ n ∈ [0x800, 0x2000, 0x8000, 0x10000, 0x20000], n = 2 ^ Nat.log2 n := by decide
  refine ⟨_, sizes c.ramSize ?_⟩
  obtain ⟨-, -, -, -, -, hl⟩ := hl
  cases hc : c.family with
  | b => exact absurd hc hf
  | romOnly | a | c | d => simp only [hc] at hl; simp; omega

section
variable {s : State} {a : Half}

theorem ramOff_eq (hl : LegalCart s.cfg.cart) (hf : s.cfg.cart.family ≠ .b) (h0 : s.cfg.cart.ramSize ≠ 0)
    (h1 : 0xA000 ≤ a) (h2 : a ≤ 0xBFFF) (b : Nat) :
    ramOff s.cfg.cart b a = (b * 0x2000 + (a.toNat - 0xA000)) % s.cfg.cart.ramSize := by
  rw [ramOff, and_sub_one_eq_mod (powerOfTwo_ramSize hl hf h0), and_toNat_eq_mod 13 rfl,
    show a.toNat % 2 ^ 13 = a.toNat - 0xA000 by bv_omega]

/-- What `map_ram` answers for an offset of cartridge RAM, or for none. -/
def ramTarget (o : Option Nat) : RamTarget := o.elim .noDevice .offset

/-- RAM of `n` bytes is shown where there is RAM and it is enabled (R276, R293). -/
theorem ramTarget_enabled {e : Bool} {n x y : Nat} (h : n ≠ 0 → x = y) :
    (if n = 0 ∨ e = false then .noDevice else .offset x)
      = ramTarget (if e = true ∧ n ≠ 0 then some y else none) := by
  by_cases hn : n = 0
  · simp [hn, ramTarget]
  · cases e <;> simp [hn, h hn, ramTarget]

/-- The window of Family C shows RAM for the selects up to 0x07 and nothing for the others, where it shows
no clock register (R286, R287). -/
theorem mapRamC_eq {y : Nat} (hf : s.cfg.cart.family = .c)
    (hr : ∀ sel, 0x08 ≤ sel → sel ≤ 0x0C → ¬ RtcSelected s sel)
    (h : s.cfg.cart.ramSize ≠ 0 → ramOff s.cfg.cart s.g1.bank.ramBank.toNat a = y) :
    mapRamC s.cfg.cart s.g1.bank a
      = ramTarget (if s.g1.bank.ramEnabled = true ∧ s.cfg.cart.ramSize ≠ 0 ∧ s.g1.bank.ramBank ≤ 7 then
          some y else none) := by
  unfold mapRamC
  split
  · rename_i he
    rw [if_neg fun h => absurd (he.symm.trans h.1) (by decide)]
    rfl
  rename_i he
  rw [Bool.not_eq_false] at he
  split
  · rename_i hb
    split
    · rename_i h0
      rw [if_neg fun h => h.2.1 h0]
      rfl
    · rename_i h0
      rw [if_pos ⟨he, h0, hb⟩, h h0]
      rfl
  · rename_i hb
    rw [if_neg (c := _ ∧ _) fun h => hb h.2.2]
    split
    · rename_i hc
      split
      · rename_i hrtc
        exact absurd ⟨hf, hrtc, he, rfl⟩ (hr s.g1.bank.ramBank (by bv_omega) hc)
      · rfl
    · rfl

/-- Where no clock register is shown, `map_ram` answers the offset of the statements (R276, R280, R286,
R287, R293). -/
theorem mapRam_eq (hl : LegalCart s.cfg.cart) (h1 : 0xA000 ≤ a) (h2 : a ≤ 0xBFFF)
    (hr : ∀ sel, 0x08 ≤ sel → sel ≤ 0x0C → ¬ RtcSelected s sel) :
    mapRam s.cfg.cart s.g1.bank a = ramTarget (ramOffsetOf s a.toNat) := by
  have off (hf : s.cfg.cart.family ≠ .b) (h0 : s.cfg.cart.ramSize ≠ 0) := ramOff_eq hl hf h0 h1 h2
  unfold mapRam ramOffsetOf ramBankOf
  cases hf : s.cfg.cart.family with
  | romOnly => simp only [mapRamNone]; split <;> rfl
  | b => simp only [mapRamB]; split <;> rfl
  | c => exact mapRamC_eq hf hr fun h0 => off (by simp [hf]) h0 _
  | a | d => exact ramTarget_enabled fun h0 => off (by simp [hf]) h0 _

theorem readNvs1_eq (o : Nat) : readNvs1 s o = ramShown s (some o) := by
  unfold readNvs1 ramShown ramByte shownByte
  cases s.g1.nvs1 with
  | none => simp
  | some n =>
    by_cases ho : o < n.bytes.size
    · simp only [ho, if_true]
    · simp only [ho, if_false, Image.read_beyond (Nat.not_lt.1 ho)]
      simp

theorem readRam_eq (hl : LegalCart s.cfg.cart) (h1 : 0xA000 ≤ a) (h2 : a ≤ 0xBFFF)
    (hr : ∀ sel, 0x08 ≤ sel → sel ≤ 0x0C → ¬ RtcSelected s sel) :
    readRam s a = ramShown s (ramOffsetOf s a.toNat) := by
  rw [readRam, mapRam_eq hl h1 h2 hr]
  cases ramOffsetOf s a.toNat with
  | none => rfl
  | some o => exact readNvs1_eq o

/-- The offset that the window shows lies in cartridge RAM (R42). -/
theorem ramOffsetOf_lt {o : Nat} (hl : LegalCart s.cfg.cart) (h2 : a ≤ 0xBFFF)
    (ho : ramOffsetOf s a.toNat = some o) : o < saveBase s.cfg.cart := by
  obtain ⟨-, -, -, -, -, hl⟩ := hl
  unfold ramOffsetOf at ho
  unfold saveBase
  cases hf : s.cfg.cart.family with
  | romOnly =>
    simp only [hf, Option.ite_none_left_eq_some, Option.some.injEq] at ho hl
    obtain ⟨h0, rfl⟩ := ho
    rw [if_neg nofun]
    bv_omega
  | b =>
    simp only [hf, Option.ite_none_right_eq_some, Option.some.injEq] at ho
    obtain ⟨-, rfl⟩ := ho
    exact Nat.mod_lt _ (by decide)
  | a | c | d =>
    simp only [hf, Option.ite_none_right_eq_some, Option.some.injEq] at ho
    obtain ⟨hc, rfl⟩ := ho
    rw [if_neg nofun]
    exact Nat.mod_lt _ (by omega)

theorem nvs1_of_saveBase (hs : SizesOk s) (h0 : 0 < saveBase s.cfg.cart) :
    ∃ n, s.g1.nvs1 = some n ∧ n.bytes.size = saveBase s.cfg.cart := by
  obtain ⟨-, -, -, -, hn, -⟩ := hs
  unfold ramSized at hn
  unfold saveBase at h0 ⊢
  split at hn
  · rename_i hb
    rwa [if_pos hb]
  · rename_i hb
    rw [if_neg hb] at h0 ⊢
    rwa [if_neg (Nat.ne_of_gt h0)] at hn

end

theorem ramAddr_range (a : BitVec 13) :
    0xA000 ≤ (5#3 ++ a : Half) ∧ (5#3 ++ a : Half) ≤ 0xBFFF
      ∧ (5#3 ++ a : Half).toNat = 0xA000 + a.toNat := by
  have h : (5#3 ++ a : Half).toNat = a.toNat + 5 * 2 ^ 13 := append_toNat 5#3 a
  have := a.isLt
  refine ⟨?_, ?_, ?_⟩ <;> bv_omega

section
variable {s : State} {a : BitVec 13} (h : Open1 s (5#3 ++ a))
include h

theorem cpuRead8_ram :
    cpuRead8 (gbAddr (5#3 ++ a)) s = .next (gave (byte (readRam s (5#3 ++ a))) s) := by
  obtain ⟨h1, h2, -⟩ := ramAddr_range a
  rw [cpuRead8, callRead_open1 (open1By_of_open1 h), openRead1_above (open1By_of_open1 h) (by bv_omega),
    echo_low (by bv_omega), regionRead1_ram h1 h2]
  rfl

theorem cpuWrite8_ram (v : Byte) : cpuWrite8 (gbAddr (5#3 ++ a)) v s = writeRam (5#3 ++ a) v s := by
  obtain ⟨h1, h2, -⟩ := ramAddr_range a
  rw [cpuWrite8, callWrite_open1 (open1By_of_open1 h), echo_low (by bv_omega), regionWrite1_ram h1 h2]

end

/-- Settles O35: every row is the read of its address. -/
theorem ramWindowRead : Obligations.RamWindowRead := by
  intro s a h _ hr i hi
  obtain ⟨h1, h2, ha⟩ := ramAddr_range a
  have hrow : exec i s = cpuRead8 (gbAddr (5#3 ++ a)) s := by
    simp only [List.mem_cons, List.not_mem_nil, or_false] at hi
    rcases hi with rfl | rfl | rfl | rfl | rfl <;> rfl
  rw [hrow, cpuRead8_ram h, readRam_eq (legalCart_of_open1 h) h1 h2 hr, ha]

/-- A store in cartridge RAM: the byte is read back at its offset, every other byte as before (R280, R305). -/
theorem writeNvs1_eq {s : State} {n : Nvs1} {o : Nat} (hn : s.g1.nvs1 = some n) (hw : n.bytes.wf = true)
    (ho : o < n.bytes.size) (v : Byte) :
    ∃ m, writeNvs1 o v s = with1 s { s.g1 with nvs1 := m }
      ∧ ramByte (with1 s { s.g1 with nvs1 := m }) o
          = (if s.cfg.cart.family = .b then v &&& 0x0F else v)
      ∧ ∀ x, x ≠ o → ramByte (with1 s { s.g1 with nvs1 := m }) x = ramByte s x := by
  refine ⟨some { n with bytes := n.bytes.write o (keptByte s.cfg.cart.family v) }, ?_, ?_, fun x hx => ?_⟩
  · unfold writeNvs1
    rw [hn]
    rfl
  · exact Image.read_write_same hw ho _
  · unfold ramByte
    rw [hn]
    exact Image.read_write_other hw hx _

/-- Settles O36: every row is the write of its address, a store at the offset shown or nothing. -/
theorem ramWindowWrite : Obligations.RamWindowWrite := by
  intro s a v h hs hm hr i hi
  obtain ⟨h1, h2, ha⟩ := ramAddr_range a
  have hl := legalCart_of_open1 h
  have hrow : exec i s = cpuWrite8 (gbAddr (5#3 ++ a)) v s := by
    simp only [List.mem_cons, List.not_mem_nil, or_false] at hi
    rcases hi with rfl | rfl | rfl | rfl | rfl | rfl <;> rfl
  rw [hrow, cpuWrite8_ram h, writeRam, mapRam_eq hl h1 h2 hr, ha]
  refine ⟨fun ho => by rw [ho]; rfl, fun o ho => ?_⟩
  rw [ho]
  have hlt := ramOffsetOf_lt hl h2 (ha ▸ ho)
  obtain ⟨n, hn, hsize⟩ := nvs1_of_saveBase hs (Nat.zero_lt_of_lt hlt)
  obtain ⟨⟨-, -, -, -, hwf⟩, -⟩ := memoryOk_iff.1 hm
  obtain ⟨m, hstore, hbytes⟩ := writeNvs1_eq hn (hwf n hn) (hsize ▸ hlt) v
  exact ⟨m, congrArg _ hstore, hbytes⟩

end Sys2Proof.Machine
end

section
/-! PROOFS. The storage window (20_memory.md R105, R114; 43_storage_battery_eeprom.md R323 to R325,
44_storage_flash.md R373, R380, 48_persistence.md R563, R565): every row is one byte read from the storage
device, or one byte written to it. -/
namespace Sys2Proof.Machine

open Sys2Proof.Safety Sys2Proof.Claims Sys2Proof.Laws.RoundTrip

/-! ### Addresses and lanes of the window -/

theorem open2By_cpu_of_open2 {s : State} (h : Open2 s) : Open2By s .cpu := by
  obtain ⟨g, hc, hs⟩ := h
  exact ⟨g, hc, .inl ⟨rfl, hs⟩⟩

theorem windowAddr_eq_add (a : BitVec 25) : 0x0E000000#32 + a.setWidth 32 = windowAddr a := by
  have := windowAddr_toNat a
  have := a.isLt
  bv_omega

theorem storageOff_windowAddr (a : BitVec 25) : storageOff (windowAddr a) = a.setWidth 16 := by
  apply BitVec.eq_of_toNat_eq
  rw [storageOff, BitVec.toNat_setWidth, BitVec.toNat_setWidth, windowAddr_toNat]
  omega

/-- The window byte in every lane of a width (R114). -/
theorem replicate_eq_inEveryLane (w : Width) (b : Byte) : replicate w b = inEveryLane w b := by
  have := b.isLt
  apply BitVec.eq_of_toNat_eq
  cases w with
  | b1 => simp [replicate, inEveryLane]
  | b2 =>
    simp only [replicate, inEveryLane, BitVec.toNat_setWidth, toNat_append_byte, BitVec.toNat_ofNat]
    omega
  | b4 =>
    simp only [replicate, inEveryLane, toNat_append_byte, BitVec.toNat_ofNat]
    omega

/-- The lane of the value that an address of the window selects (R114). -/
theorem windowByte_eq_storedByte (a : BitVec 25) (w : Width) (v : Word) :
    windowByte (windowAddr a) w v = storedByte w a.toNat v := by
  have low {m : Word} (n : Nat) (hm : m.toNat = 2 ^ n - 1) (hn : 2 ^ n ∣ 7 * 2 ^ 25) :
      (windowAddr a &&& m).toNat = a.toNat % 2 ^ n := by
    rw [show (windowAddr a &&& m).toNat = _ from maskAddr_eq_mod n hm, windowAddr_toNat,
      Nat.add_mod, Nat.mod_eq_zero_of_dvd hn, Nat.zero_add, Nat.mod_mod]
  cases w with
  | b1 => simp only [windowByte, storedByte, Width.bytes, lane_eq_valueByte, Nat.mod_one]
  | b2 =>
    rw [windowByte, lane_eq_valueByte, low 1 (by decide) (by decide)]
    rfl
  | b4 =>
    rw [windowByte, lane_eq_valueByte, low 2 (by decide) (by decide)]
    rfl

theorem storedByte_cut (w : Width) (a : Nat) (v : Word) : storedByte w a (w.cut v) = storedByte w a v :=
  valueByte_cut (Nat.mod_lt _ (by cases w <;> decide)) v

theorem storedByte_b1 (a : Nat) (v : Byte) : storedByte .b1 a (v.setWidth 32) = v := by
  rw [storedByte, Width.bytes, Nat.mod_one, ← lane_eq_valueByte, lane_zero_setWidth]

/-! ### One byte read -/

/-- Every row that reads the window is the read of its address by the CPU. -/
theorem exec_windowReads {a : BitVec 25} {w : Width} {i : Instr} (hi : i ∈ windowReads a w) (s : State) :
    exec i s = callRead .cpu .data (windowAddr a) w s := by
  simp only [windowReads, List.mem_cons, List.not_mem_nil, or_false] at hi
  obtain rfl | rfl | rfl | rfl := hi
  · rfl
  · rfl
  · rfl
  · rw [exec_readRow, windowAddr_eq_add]

theorem callRead_window {s : State} (h : Open2 s) (a : BitVec 25) (w : Width) :
    callRead .cpu .data (windowAddr a) w s
      = .next (gave (inEveryLane w (storageByte s.g2.nvs2 (a.setWidth 16))) s) := by
  rw [callRead_open2 (open2By_cpu_of_open2 h), read2_window, storageRead, storageOff_windowAddr,
    replicate_eq_inEveryLane]
  rfl

/-- 43_storage_battery_eeprom.md R323: a battery RAM ends at 0x8000. -/
theorem batteryRam_read {m : Image} (hm : m.size = 0x8000) (o : Nat) :
    (if o < 0x8000 then m.read o else 0xFF) = m.read o := by
  split
  · rfl
  · exact (Image.read_beyond (by omega)).symm

/-- 44_storage_flash.md R380. -/
theorem flashRead_eq (f : Flash) (o : Half) :
    flashRead f o = if f.idMode = true ∧ o.toNat = 0 then f.chipId.manufacturer
      else if f.idMode = true ∧ o.toNat = 1 then f.chipId.device
      else f.bytes.read (f.bank.toNat * 0x10000 + o.toNat) := by
  have h0 : o = 0 ↔ o.toNat = 0 := BitVec.toNat_inj.symm
  have h1 : o = 1 ↔ o.toNat = 1 := BitVec.toNat_inj.symm
  simp only [flashRead, h0, h1, physical]

/-- Settles O51: each row is one byte of the storage device in every lane, by the variant. -/
theorem storageWindowReads : Obligations.StorageWindowReads := by
  intro s a w h hs
  dsimp only
  have row : ∀ i ∈ windowReads a w, exec i s = _ := fun i hi =>
    (exec_windowReads hi s).trans (callRead_window h a w)
  have ho : (a.setWidth 16).toNat = a.toNat % 0x10000 := BitVec.toNat_setWidth _ _
  refine ⟨fun m hn i hi => ?_, fun f hn i hi => ?_, fun hn i hi => ?_, fun f hn hid hi => ?_⟩
  · have hm : m.size = 0x8000 := by rwa [StorageOk, hn] at hs
    rw [row i hi, hn, storageByte, ho, batteryRam_read hm]
  · rw [row i hi, hn, storageByte, flashRead_eq, ho]
  · rw [row i hi]
    obtain hn | ⟨e, hn⟩ := hn <;> rw [hn] <;> rfl
  · have id (o : Half) : callRead .cpu .data (windowAddr (hi ++ o)) w s
        = .next (gave (inEveryLane w (flashRead f o)) s) := by
      rw [callRead_window h, hn, storageByte, append_low]
    exact ⟨(id 0).trans (by rw [flashRead, if_pos ⟨hid, rfl⟩]),
      (id 1).trans (by rw [flashRead, if_neg (by simp), if_pos ⟨hid, rfl⟩])⟩

/-! ### One byte written -/

/-- Every row that writes the window gives the storage device one byte (R325). -/
theorem exec_windowWrites {s : State} (h : Open2 s) {a : BitVec 25} {w : Width} {v : Word} {i : Instr}
    (hi : i ∈ windowWrites a w v) :
    exec i s = storageWriteByte (a.setWidth 16) (storedByte w a.toNat v)
      (resolvedFor (a.setWidth 16) (storedByte w a.toNat v) s) := by
  have write (x : Word) : callWrite .cpu (windowAddr a) w x s = storageWriteByte (a.setWidth 16)
      (storedByte w a.toNat x) (resolvedFor (a.setWidth 16) (storedByte w a.toNat x) s) := by
    rw [callWrite_open2 (open2By_cpu_of_open2 h), write2_window, storageWrite, storageOff_windowAddr,
      windowByte_eq_storedByte]
  simp only [windowWrites, List.mem_cons, List.not_mem_nil, or_false] at hi
  obtain rfl | rfl | rfl := hi
  · exact write v
  · exact write v
  · rw [exec_writeRow, windowAddr_eq_add, write, storedByte_cut]

/-- A flash row is the write of one byte at its offset (30_encoding.md R182). -/
theorem flashByteWrite_eq {s : State} (h : Open2 s) (o : Half) (v : Byte) :
    flashByteWrite o v s = storageWriteByte o v (resolvedFor o v s) := by
  have ha : (0x0E00#16 ++ o : Word) = windowAddr (0#9 ++ o) := by
    apply BitVec.eq_of_toNat_eq
    simp only [windowAddr_toNat, append_toNat, BitVec.toNat_ofNat]
    omega
  have hw := exec_windowWrites h (a := 0#9 ++ o) (w := .b1) (v := v.setWidth 32) List.mem_cons_self
  rw [append_low, storedByte_b1] at hw
  rw [flashByteWrite, cpuWrite8, ha]
  exact hw

theorem resolvedFor_resolved {s : State} (h : s.g2.nvs2 ≠ .unresolved) (o : Half) (v : Byte) :
    resolvedFor o v s = s := if_neg h

theorem setNvs2_same {s : State} {n : Nvs2} (h : s.g2.nvs2 = n) : setNvs2 n s = s := by
  rw [← h]; rfl

section
variable {s : State}

theorem storageWriteByte_batteryRam {m : Image} (h : s.g2.nvs2 = .batteryRam m) (o : Half) (v : Byte) :
    storageWriteByte o v s = .next (withVariant s (.batteryRam (m.write o.toNat v))) := by
  rw [storageWriteByte, h]; rfl

theorem storageWriteByte_eeprom {e : Eeprom} (h : s.g2.nvs2 = .eeprom e) (o : Half) (v : Byte) :
    storageWriteByte o v s = .next s := by
  rw [storageWriteByte, h]

theorem storageWriteByte_flash {f : Flash} (h : s.g2.nvs2 = .flash f) (o : Half) (v : Byte) :
    storageWriteByte o v s
      = bindR (flashWrite s.cfg.timing o v f) fun g => .next (withVariant s (.flash g)) := by
  rw [storageWriteByte, h]; rfl

/-- 48_persistence.md R565: the first unlock byte selects a flash, which takes it. -/
theorem write_unresolved_unlock (h : s.g2.nvs2 = .unresolved) :
    storageWriteByte 0x5555 0xAA (resolvedFor 0x5555 0xAA s) = .next (withVariant s (.flash
      { bytes := Image.filled (if s.cfg.sniffDual then 0x20000 else 0x10000) 0xFF,
        state := .starting, last := .none,
        chipId := if s.cfg.sniffDual then s.cfg.flashId128 else s.cfg.flashId64,
        bank := 0, idMode := false, busy := none })) := by
  rw [resolvedFor, if_pos h, sniffStorage, if_pos ⟨rfl, rfl⟩, freshFlashOf,
    storageWriteByte_flash (setNvs2_g2_nvs2 _ s)]
  cases s.cfg.sniffDual <;> rfl

/-- 48_persistence.md R565: any other byte selects a battery RAM, which takes it. -/
theorem write_unresolved_other (h : s.g2.nvs2 = .unresolved) {o : Half} {v : Byte}
    (hu : ¬ (o = 0x5555 ∧ v = 0xAA)) :
    storageWriteByte o v (resolvedFor o v s) = .next { withVariant s
      (.batteryRam ((drawn 0x8000 s.draws).write o.toNat v)) with draws := s.draws + 1 } := by
  rw [resolvedFor, if_pos h, sniffStorage, if_neg hu]
  rfl

end

/-- Settles O52: each row gives the storage device one byte, and the variant decides. -/
theorem storageWindowWrites : Obligations.StorageWindowWrites := by
  intro s a w v h hs hm
  dsimp only
  have row : ∀ i ∈ windowWrites a w v, exec i s = _ := fun i hi => exec_windowWrites h hi
  have resolved {n : Nvs2} (hn : s.g2.nvs2 = n) (hu : n ≠ .unresolved) (o : Half) (b : Byte) :
      resolvedFor o b s = s := resolvedFor_resolved (hn ▸ hu) o b
  have ho : (a.setWidth 16).toNat = a.toNat % 0x10000 := BitVec.toNat_setWidth _ _
  have ho' : a.setWidth 16 = 0x5555 ↔ a.toNat % 0x10000 = 0x5555 := by rw [← ho, ← BitVec.toNat_inj]; rfl
  refine ⟨fun m hn i hi => ?_, fun e hn i hi => ?_, fun f hn i hi => ?_, fun hn i hi => ?_⟩
  · have hsize : m.size = 0x8000 := by rwa [StorageOk, hn] at hs
    have hwf : m.wf = true := by have := nvs2_canonical hm; rwa [hn, Nvs2.canonical_batteryRam] at this
    rw [row i hi, resolved hn nofun, storageWriteByte_batteryRam hn, ho]
    refine ⟨fun hb => ?_, fun hb => ⟨_, rfl, storedAt_one hwf (fun _ => storedByte w a.toNat v) (by omega)⟩⟩
    rw [Image.write_beyond (by omega)]
    exact congrArg _ (setNvs2_same hn)
  · rw [row i hi, resolved hn nofun, storageWriteByte_eeprom hn]
  · rw [row i hi, ← ho, BitVec.ofNat_toNat, BitVec.setWidth_eq]
    exact (flashByteWrite_eq h _ _).symm
  · rw [row i hi]
    refine ⟨fun h1 h2 => ?_, fun hu => ⟨_, write_unresolved_other hn (by rwa [ho']), ?_, fun hb => ?_⟩⟩
    · rw [ho'.2 h1, h2, write_unresolved_unlock hn]
    · rw [Image.write_size]; rfl
    · rw [ho]
      exact Image.read_write_same (drawn_wf _ _) hb _

end Sys2Proof.Machine
end

section
/-! PROOFS. What the cut array and the array with a range stored read as (log 3), for the freeze of an
EEPROM's address length (43_storage_battery_eeprom.md R334) and a flash's erase (44_storage_flash.md R379). -/
namespace Sys2Proof

/-- In a rising list the value listed at an index is the one of its cell. -/
theorem lookupCell_eq_some_iff {l : List Host.Cell} (hl : l.Pairwise fun c d => c.1 < d.1) {i : Nat} {v : Byte} :
    lookupCell l i = some v ↔ (i, v) ∈ l := by
  induction l with
  | nil => simp [lookupCell]
  | cons c r ih =>
    obtain ⟨hc, hr⟩ := List.pairwise_cons.1 hl
    have absent (h : i ≤ c.1) : (i, v) ∉ r := fun hm => Nat.not_lt.2 h (hc _ hm)
    rw [lookupCell, List.mem_cons, Prod.ext_iff]
    split
    · rename_i h
      simp [h, absent (Nat.le_of_eq h.symm), eq_comm]
    · rename_i h
      split
      · rename_i h'
        simp [absent (Nat.le_of_lt h'), Ne.symm h]
      · simp [ih hr, Ne.symm h]

/-- Rising lists with the same cells at an index list the same there. -/
theorem lookupCell_congr {l l' : List Host.Cell} (hl : l.Pairwise fun c d => c.1 < d.1)
    (hl' : l'.Pairwise fun c d => c.1 < d.1) {i : Nat} (h : ∀ v, (i, v) ∈ l ↔ (i, v) ∈ l') :
    lookupCell l i = lookupCell l' i :=
  Option.ext fun v => by rw [lookupCell_eq_some_iff hl, lookupCell_eq_some_iff hl', h v]

/-! ### The first bytes of an array -/

@[simp] theorem Image.cut_size (m : Image) (n : Nat) : (m.cut n).size = min n m.size := rfl

theorem Image.read_cut {m : Image} (h : m.wf = true) {n i : Nat} (hi : i < n) : (m.cut n).read i = m.read i := by
  have hl : lookupCell (m.cut n).cells i = lookupCell m.cells i :=
    lookupCell_congr ((Image.wf_iff _).1 (Image.cut_wf h n)).1 ((Image.wf_iff _).1 h).1
      fun v => by simp [Image.cut, hi]
  simp only [Image.read, hl, Image.cut_size, Nat.lt_min, hi, true_and]
  rfl

/-! ### A range of an array -/

theorem pairwise_rangeCells (m : Image) (i n : Nat) (v : Byte) :
    (rangeCells m i n v).Pairwise fun c d => c.1 < d.1 := by
  unfold rangeCells
  split
  · exact List.Pairwise.nil
  · exact pairwise_cellsFrom _ _ _

theorem rangeCells_range {m : Image} {i n : Nat} {v : Byte} {c : Host.Cell} (h : c ∈ rangeCells m i n v) :
    i ≤ c.1 ∧ c.1 < i + n := by
  unfold rangeCells at h
  split at h
  · cases h
  · obtain ⟨hi, hn, -⟩ := cellsFrom_range h
    rw [List.length_replicate] at hn
    exact ⟨hi, by omega⟩

/-- Every index of the range reads as the byte stored there. -/
theorem rangeCells_value {m : Image} {i n x : Nat} (v : Byte) (hi : i ≤ x) (hn : x < i + n) (hx : x < m.size) :
    (lookupCell (rangeCells m i n v) x).getD (m.fill.value x) = v := by
  unfold rangeCells
  split
  · rename_i hf
    rw [lookupCell, Option.getD_none]
    cases h : m.fill <;> simp_all [Fill.holds, Fill.value]
  · rw [lookupCell_cellsFrom, dif_pos (by rw [List.length_replicate]; omega), List.getElem_replicate]

theorem mem_setRange {m : Image} {i n : Nat} {v : Byte} {c : Host.Cell} :
    c ∈ (m.setRange i n v).cells
      ↔ c ∈ rangeCells m i n v ∨ c ∈ m.cells ∧ (c.1 < i ∨ i + n ≤ c.1) := by
  simp only [Image.setRange, List.mem_append, List.mem_filter, decide_eq_true_eq]
  tauto

theorem Image.read_setRange {m : Image} (h : m.wf = true) (i n : Nat) (v : Byte) (x : Nat) :
    (m.setRange i n v).read x = if i ≤ x ∧ x < i + n ∧ x < m.size then v else m.read x := by
  have sorted := ((Image.wf_iff _).1 (Image.setRange_wf h i n v)).1
  by_cases hx : x < m.size
  · rw [Image.read, Image.setRange_size, if_pos hx]
    by_cases hin : i ≤ x ∧ x < i + n
    · have hl : lookupCell (m.setRange i n v).cells x = lookupCell (rangeCells m i n v) x :=
        lookupCell_congr sorted (pairwise_rangeCells m i n v) fun w => by
          rw [mem_setRange]
          exact or_iff_left fun hw => by omega
      rw [hl, if_pos ⟨hin.1, hin.2, hx⟩]
      exact rangeCells_value v hin.1 hin.2 hx
    · have hl : lookupCell (m.setRange i n v).cells x = lookupCell m.cells x :=
        lookupCell_congr sorted ((Image.wf_iff _).1 h).1 fun w => by
          rw [mem_setRange, or_iff_right fun hw => hin (rangeCells_range hw)]
          exact and_iff_left (by omega)
      rw [hl, if_neg fun ⟨hi, hn, _⟩ => hin ⟨hi, hn⟩, Image.read, if_pos hx]
      rfl
  · rw [if_neg fun ⟨_, _, hc⟩ => hx hc, Image.read_beyond (Nat.not_lt.1 hx),
      Image.read_beyond (m := m.setRange i n v) (Nat.not_lt.1 hx)]

end Sys2Proof
end

section
/-! PROOFS. The deferred completions of the storage device (43_storage_battery_eeprom.md R342, R343,
44_storage_flash.md R378, R379, R388): while no DMA is under way a tick only counts the operation in flight
down, and its last cycle stores what it says. -/
namespace Sys2Proof.Machine

open Sys2Proof.Safety Sys2Proof.Claims

/-! ### Cycles with an operation in flight -/

theorem exec_tick_natCast (n : Nat) (s : State) : exec (.tick n) s = ticks n s :=
  exec_tick_of_nonneg (Int.natCast_nonneg n) s

section
variable {s : State} (g : s.cfg.gen = .gen2)
  (hk : ∀ k, (chan s k).state = .inactive ∨ (chan s k).state = .paused)
include g hk

theorem tick1_of_storageBusy (hb : storageBusy s.g2.nvs2 = true) :
    tick1 s = .next (withVariant s (nvs2Tick s.g2.nvs2)) := by
  simp only [tick1, enginesTick1, completionTick1, g, dmaTick1_of_idle hk, hb, bindR_next, if_true]
  rfl

theorem ticks_one_withVariant {n : Nvs2} (hb : storageBusy n = true) :
    ticks 1 (withVariant s n) = .next (withVariant s (nvs2Tick n)) := by
  rw [ticks, tick1_of_storageBusy (s := withVariant s n) g hk hb]
  rfl

/-- An operation in flight, as a device `v r` for the `r` cycles left, only counts down before its last
cycle. -/
theorem ticks_countdown {v : Int → Nvs2} (busy : ∀ r, storageBusy (v r) = true)
    (count : ∀ r, r ≠ 1 → nvs2Tick (v r) = v (r - 1)) {n j : Nat} (hs : s.g2.nvs2 = v (n + 1)) (hj : j ≤ n) :
    ticks j s = .next (withVariant s (v ((n : Int) + 1 - j))) := by
  induction j with
  | zero =>
    rw [Int.natCast_zero, Int.sub_zero, ← hs]
    rfl
  | succ j ih =>
    rw [ticks_add, ih (by omega), bindR_next, ticks_one_withVariant g hk (busy _), count _ (by omega),
      Int.natCast_succ, Int.sub_sub]

theorem ticks_complete {v : Int → Nvs2} (busy : ∀ r, storageBusy (v r) = true)
    (count : ∀ r, r ≠ 1 → nvs2Tick (v r) = v (r - 1)) {n : Nat} (hs : s.g2.nvs2 = v (n + 1)) :
    ticks (n + 1) s = .next (withVariant s (nvs2Tick (v 1))) := by
  rw [ticks_add, ticks_countdown g hk busy count hs (Nat.le_refl n), bindR_next,
    ticks_one_withVariant g hk (busy _), add_sub_cancel_left]

end

/-! ### The operations -/

/-- A flash with a program or an erase in flight, `r` cycles before its end. -/
def flashPending (f : Flash) (a : FlashAction) (r : Int) : Nvs2 :=
  .flash { f with busy := some { remaining := r, action := a } }

theorem flashPending_count (f : Flash) (a : FlashAction) (r : Int) (h : r ≠ 1) :
    nvs2Tick (flashPending f a r) = flashPending f a (r - 1) := by
  simp only [flashPending, nvs2Tick, flashTick, if_neg (show ¬ r - 1 = 0 by omega)]

theorem flashPending_last (f : Flash) (a : FlashAction) :
    nvs2Tick (flashPending f a 1) = .flash { f with bytes := flashAction a f.bytes, busy := none } := rfl

/-- An Eeprom with the write of a word in flight, `r` cycles before its end. -/
def eepromPending (e : Eeprom) (word : Nat) (d : BitVec 64) (r : Int) : Nvs2 :=
  .eeprom { e with busy := some { remaining := r, word := word, data := d } }

theorem eepromPending_count (e : Eeprom) (word : Nat) (d : BitVec 64) (r : Int) (h : r ≠ 1) :
    nvs2Tick (eepromPending e word d r) = eepromPending e word d (r - 1) := by
  simp only [eepromPending, nvs2Tick, eepromTick, if_neg (show ¬ r - 1 = 0 by omega)]

theorem eepromPending_last (e : Eeprom) (word : Nat) (d : BitVec 64) :
    nvs2Tick (eepromPending e word d 1) = .eeprom { e with
      bytes := if word < eepromWords e then storeEepromWord e.bytes word d else e.bytes,
      ready := true, busy := none } := rfl

/-! ### What they store -/

/-- Consecutive bytes stored one by one. -/
theorem storedAt_foldl {m : Image} (hm : m.wf = true) {o : Nat} (f : Nat → Byte) (n : Nat) (h : o + n ≤ m.size) :
    let m' := (List.range n).foldl (fun m i => m.write (o + i) (f i)) m
    StoredAt m m' o n f ∧ m'.wf = true ∧ m'.size = m.size := by
  induction n with
  | zero => exact ⟨storedAt_zero m o f, hm, rfl⟩
  | succ n ih =>
    obtain ⟨stored, wf, size⟩ := ih (by omega)
    rw [List.range_succ, List.foldl_append]
    exact ⟨storedAt_succ stored wf (by omega), Image.write_wf wf _ _, (Image.write_size ..).trans size⟩

/-- 43_storage_battery_eeprom.md R326: the most significant byte first. -/
theorem wordByte_eq (d : BitVec 64) (i : Nat) : wordByte d i = BitVec.ofNat 8 (d.toNat / 256 ^ (7 - i)) := by
  apply BitVec.eq_of_toNat_eq
  rw [wordByte, BitVec.extractLsb'_toNat, BitVec.toNat_ofNat, Nat.shiftRight_eq_div_pow,
    show 56 - 8 * i = 8 * (7 - i) by omega, Nat.pow_mul]

theorem storedAt_storeEepromWord {m : Image} (hm : m.wf = true) {w : Nat} (h : w < m.size / 8) (d : BitVec 64) :
    StoredAt m (storeEepromWord m w d) (8 * w) 8 fun i => BitVec.ofNat 8 (d.toNat / 256 ^ (7 - i)) :=
  storedAt_congr (storedAt_foldl hm (wordByte d) 8 (by omega)).1 fun i _ => wordByte_eq d i

/-- 44_storage_flash.md R379: a chip erase leaves every byte 0xFF. -/
theorem read_eraseChip {m : Image} (hm : m.wf = true) (x : Nat) : (flashAction .eraseChip m).read x = 0xFF := by
  rw [flashAction, Image.read_setRange hm, Nat.zero_add]
  split
  · rfl
  · exact Image.read_beyond (by omega)

/-- 44_storage_flash.md R379: a sector erase leaves the 0x1000 bytes of the sector 0xFF. -/
theorem read_eraseSector {m : Image} (hm : m.wf = true) (p x : Nat) :
    (flashAction (.eraseSector p) m).read x = if p ≤ x ∧ x < p + 0x1000 then 0xFF else m.read x := by
  rw [flashAction, Image.read_setRange hm]
  by_cases hx : x < m.size
  · simp only [hx, and_true]
  · rw [if_neg fun h => hx h.2.2, Image.read_beyond (by omega), ite_self]

/-- Settles O56: the operation counts down in every cycle, and the last one stores it. -/
theorem deferredStorageCompletes : Obligations.DeferredStorageCompletes := by
  intro s n j g hm _ hk
  have hwf := nvs2_canonical hm
  refine ⟨fun f a hn hb => ?_, fun e word d hn hb => ?_⟩
  · have hv : s.g2.nvs2 = flashPending f a (n + 1) := by rw [hn, flashPending, ← hb]
    have busy (r : Int) : storageBusy (flashPending f a r) = true := rfl
    rw [hn, Nvs2.canonical_flash] at hwf
    refine ⟨fun hj => ?_, flashAction a f.bytes, ?_, ?_⟩
    · rw [exec_tick_natCast, ticks_countdown g hk busy (flashPending_count f a) hv hj]
      rfl
    · rw [← Int.natCast_succ, exec_tick_natCast, ticks_complete g hk busy (flashPending_count f a) hv,
        flashPending_last]
    · cases a with
      | program p v => exact ⟨fun hp => Image.read_write_same hwf hp v, fun x hx => Image.read_write_other hwf hx v⟩
      | eraseChip => exact read_eraseChip hwf
      | eraseSector p => exact read_eraseSector hwf p
  · have hv : s.g2.nvs2 = eepromPending e word d (n + 1) := by rw [hn, eepromPending, ← hb]
    have busy (r : Int) : storageBusy (eepromPending e word d r) = true := rfl
    rw [hn, Nvs2.canonical_eeprom] at hwf
    refine ⟨fun hj => ?_, if word < eepromWords e then storeEepromWord e.bytes word d else e.bytes, ?_, ?_⟩
    · rw [exec_tick_natCast, ticks_countdown g hk busy (eepromPending_count e word d) hv hj]
      rfl
    · rw [← Int.natCast_succ, exec_tick_natCast, ticks_complete g hk busy (eepromPending_count e word d) hv,
        eepromPending_last]
    · unfold eepromWords
      split
      · rename_i hw
        exact storedAt_storeEepromWord hwf hw d
      · rfl

end Sys2Proof.Machine
end

section
/-! PROOFS. Streams of the EEPROM (43_storage_battery_eeprom.md R332 to R338, R345, R346; 30_encoding.md
R181): what a whole stream does to a device with no bits pending. -/
namespace Sys2Proof.Machine

open Sys2Proof.Safety Sys2Proof.Claims Sys2Proof.Laws.RoundTrip

/-! ### The stop bit (R333) -/

/-- The lengths of a command without its stop bit. -/
def isCommandLength (n : Nat) : Prop := n = 8 ∨ n = 16 ∨ n = 72 ∨ n = 80

theorem dropStop_length (l : List Bool) : (dropStop l).length
    = if l.length = 9 ∨ l.length = 17 ∨ l.length = 73 ∨ l.length = 81 then l.length - 1 else l.length := by
  unfold dropStop
  split
  · exact List.length_dropLast
  · rfl

/-- A stop bit is the ninth bit or a later one. -/
theorem dropStop_getElem? {l : List Bool} {i : Nat} (h : i < 8) : (dropStop l)[i]? = l[i]? := by
  unfold dropStop
  split
  · rw [List.getElem?_dropLast, if_pos (by omega)]
  · rfl

theorem dropStop_append {l : List Bool} (h : isCommandLength l.length) (stop : Option Bool) :
    dropStop (l ++ stop.toList) = l := by
  unfold isCommandLength at h
  cases stop with
  | none => rw [dropStop, Option.toList_none, List.append_nil, if_neg (by omega)]
  | some b =>
    rw [dropStop, Option.toList_some, if_pos, List.dropLast_concat]
    rw [List.length_append, List.length_singleton]
    omega

/-! ### The command of a stream (R333, R335) -/

/-- The two address lengths and their numbers of bits. -/
def IsAddressLength (n : Nat) (bits : AddrBits) : Prop := n = 6 ∧ bits = .six ∨ n = 14 ∧ bits = .fourteen

theorem commandOf_msbBits {n : Nat} (bits : AddrBits) (x : BitVec n) (write b1 : Bool) (r : List Bool) :
    commandOf bits n write b1 (msbBits x ++ r)
      = { bits := bits, x := x.toNat, data := if write then some (BitVec.ofNat 64 (bitsToNat r)) else none,
          fits := b1 != write } := by
  rw [commandOf, List.take_left' (msb_length x), List.drop_left' (msb_length x), bits_msb]

section
variable {n : Nat} {bits : AddrBits} (h : IsAddressLength n bits) (x : BitVec n) (stop : Option Bool)
include h

theorem parseStream_readBits :
    parseStream (readBits x stop) = some { bits := bits, x := x.toNat, data := none, fits := true } := by
  have hc := commandOf_msbBits bits x false true []
  rw [List.append_nil] at hc
  obtain ⟨rfl, rfl⟩ | ⟨rfl, rfl⟩ := h
  all_goals
    rw [parseStream, readBits, dropStop_append (by simp [isCommandLength])]
    simp [parseBits, hc]

theorem parseStream_writeBits (d : BitVec 64) :
    parseStream (writeBits x d stop) = some { bits := bits, x := x.toNat, data := some d, fits := true } := by
  have hc := commandOf_msbBits bits x true false (msbBits d)
  rw [ofNat_msb] at hc
  obtain ⟨rfl, rfl⟩ | ⟨rfl, rfl⟩ := h
  all_goals
    rw [parseStream, writeBits, dropStop_append (by simp [isCommandLength])]
    simp [parseBits, hc]

end

/-! ### Streams that are no row of the table -/

/-- A stream without its stop bit that is no command: of another length, or without the start bit. -/
def NoCommand (l : List Bool) : Prop := ¬ isCommandLength l.length ∨ l[0]? ≠ some true

/-- A stream without its stop bit whose read/write bit is not the one of its length. -/
def OtherCommand (l : List Bool) : Prop :=
  l[0]? = some true ∧ ((l.length = 8 ∨ l.length = 16) ∧ l[1]? = some false
    ∨ (l.length = 72 ∨ l.length = 80) ∧ l[1]? = some true)

theorem noCommand_of_malformed {l : List Bool} (h : Malformed l) : NoCommand (dropStop l) := by
  unfold NoCommand isCommandLength
  rw [dropStop_length, dropStop_getElem? (by decide), ← List.head?_eq_getElem?]
  refine h.imp_left fun hl => ?_
  simp only [List.mem_cons, List.not_mem_nil, or_false] at hl
  split <;> omega

theorem otherCommand_of_unfit {l : List Bool} (h : Unfit l) : OtherCommand (dropStop l) := by
  obtain ⟨h0, h⟩ := h
  unfold OtherCommand
  rw [dropStop_length, dropStop_getElem? (by decide), dropStop_getElem? (by decide), ← List.head?_eq_getElem?]
  simp only [List.mem_cons, List.not_mem_nil, or_false] at h
  refine ⟨h0, h.imp (And.imp_left fun hl => ?_) (And.imp_left fun hl => ?_)⟩ <;> split <;> omega

theorem parseBits_of_noCommand {l : List Bool} (h : NoCommand l) : parseBits l = none := by
  unfold parseBits
  split
  · simp only [NoCommand, isCommandLength, List.length_cons, List.getElem?_cons_zero, ne_eq, not_true, or_false] at h
    rw [if_neg (by omega), if_neg (by omega), if_neg (by omega), if_neg (by omega)]
  · rfl

theorem parseBits_of_otherCommand {l : List Bool} (h : OtherCommand l) :
    ∃ c, parseBits l = some c ∧ c.fits = false
      ∧ c.bits = if l.length = 8 ∨ l.length = 72 then .six else .fourteen := by
  match l with
  | [] | [_] => simp [OtherCommand] at h
  | b0 :: b1 :: r =>
    simp only [OtherCommand, List.getElem?_cons_zero, List.getElem?_cons_succ, Option.some.injEq,
      List.length_cons] at h
    obtain ⟨rfl, ⟨hl | hl, rfl⟩ | ⟨hl | hl, rfl⟩⟩ := h
    all_goals simp [parseBits, commandOf, Nat.succ.inj (Nat.succ.inj hl)]

theorem streamRow_bad {l : List Bool} (h : NoCommand l ∨ OtherCommand l) (all : List Bool) (stop : Option Bool) :
    streamRow all l stop = .error (.badStream all) := by
  unfold streamRow
  split
  case h_3 => rfl
  all_goals
    simp only [NoCommand, OtherCommand, isCommandLength, List.length_cons, List.getElem?_cons_zero,
      List.getElem?_cons_succ, ne_eq, not_true, or_false, Option.some.injEq, true_and, Bool.true_eq_false,
      Bool.false_eq_true, and_false, and_true, false_or] at h
    rw [if_neg (by omega), if_neg (by omega)]

theorem decode_badStream {l : List Bool} (h : NoCommand (dropStop l) ∨ OtherCommand (dropStop l)) :
    decode (streamFrame l) = .error (.badStream l) := by
  change decodeStream (l.map boolCode) = _
  rw [decodeStream, List.length_map, bits_of_frame]
  unfold dropStop at h
  split <;> rename_i hl
  · rw [if_pos hl] at h
    exact streamRow_bad h _ _
  · rw [if_neg hl] at h
    exact streamRow_bad h _ _

/-! ### A stream on a device with no bits pending -/

theorem runStream_setNvs2 (l : List Bool) (e : Eeprom) (n : Nvs2) (s : State) :
    runStream l e (setNvs2 n s) = runStream l e s := by
  unfold runStream runCommand
  repeat' split
  all_goals rfl

theorem appendBits_eeprom (l : List Bool) {e : Eeprom} {s : State} (h : s.g2.nvs2 = .eeprom e) :
    appendBits l s = setNvs2 (.eeprom { e with pending := e.pending ++ l }) s := by
  induction l generalizing e s with
  | nil => rw [List.append_nil]; exact (setNvs2_same h).symm
  | cons b r ih =>
    have hb : appendBit b s = setNvs2 (.eeprom { e with pending := e.pending ++ [b] }) s := by
      rw [appendBit, h]
    rw [appendBits, List.foldl_cons, hb]
    exact (ih (setNvs2_g2_nvs2 _ s)).trans (by rw [List.append_assoc]; rfl)

section
variable {s : State} {e : Eeprom} (hn : s.g2.nvs2 = .eeprom e)
include hn

/-- The pending bits run and cleared (R332). -/
theorem endStream_eeprom : endStream s = runStream e.pending { e with pending := [] } s := by
  rw [endStream, hn]

theorem callStream_eeprom (g : s.cfg.gen = .gen2) (hp : e.pending = []) (l : List Bool) :
    callStream l s = .next (runStream l e s) := by
  unfold callStream
  split
  · rename_i hl
    rw [hl]
    exact congrArg _ (setNvs2_same hn).symm
  · have hs : eepromSelected s = s := if_neg (hn ▸ nofun)
    simp only [g, hs, appendBits_eeprom l hn]
    rw [endStream_eeprom (setNvs2_g2_nvs2 _ s), runStream_setNvs2, hp, List.nil_append, ← hp]

theorem runStream_of_noCommand {l : List Bool} (h : NoCommand (dropStop l)) : runStream l e s = s := by
  rw [runStream, parseStream, parseBits_of_noCommand h]
  exact setNvs2_same hn

/-- 43_storage_battery_eeprom.md R334, R336, log 20: on a device of known address length a stream of the
other length, one that comes while a write is in flight and one of the wrong read/write bit is dropped. -/
theorem runStream_dropped {l : List Bool} {c : EepromCommand} (hp : parseStream l = some c)
    (hk : e.addrBits ≠ .unknown) (hd : e.addrBits ≠ c.bits ∨ e.busy.isSome = true ∨ c.fits = false) :
    runStream l e s = s := by
  have hf : freeze e c = if e.addrBits = c.bits then some e else none := by
    unfold freeze
    split
    · exact absurd ‹_› hk
    · rfl
  simp only [runStream, hp, hf]
  split
  · exact setNvs2_same hn
  · rename_i e' he
    split at he
    · rename_i hb
      cases he
      rw [runCommand, if_pos (hd.resolve_left (not_not.2 hb))]
      exact setNvs2_same hn
    · cases he

end

/-! ### The address length settled (R334) -/

/-- The bytes of a device whose address length is settled as `bits`: as many as it has words for, as they
were. -/
def SettledBytes (e : Eeprom) (bits : AddrBits) (m : Image) : Prop :=
  m.size = (if bits = .six then 512 else 8192) ∧ ∀ j < m.size, m.read j = e.bytes.read j

theorem settledBytes_below {e : Eeprom} {bits : AddrBits} {m : Image} (h : SettledBytes e bits m) {n : Nat}
    (hn : (if bits = .six then 512 else 8192) = n) : m.size = n ∧ ∀ j < n, m.read j = e.bytes.read j := by
  obtain ⟨hsize, hread⟩ := h
  rw [hn] at hsize
  exact ⟨hsize, hsize ▸ hread⟩

/-- A command that the address length allows is run on the device with that length settled. -/
theorem runStream_settled {s : State} {e : Eeprom} {l : List Bool} {c : EepromCommand}
    (hwf : e.bytes.wf = true) (he : eepromOk e) (hp : parseStream l = some c) (hc : c.bits ≠ .unknown)
    (ho : e.addrBits = .unknown ∨ e.addrBits = c.bits) :
    ∃ m, SettledBytes e c.bits m
      ∧ runStream l e s = runCommand c { e with addrBits := c.bits, bytes := m } s := by
  obtain ⟨hsize, -⟩ := he
  simp only [runStream, hp]
  obtain ho | ho := ho
  · have hf : freeze e c = some { e with
        addrBits := c.bits, bytes := if c.bits = .six then e.bytes.cut 512 else e.bytes } := by
      rw [freeze, ho]
    refine ⟨_, ⟨?_, fun j hj => ?_⟩, by rw [hf]⟩
    · rw [ho, if_neg nofun] at hsize
      split
      · rw [Image.cut_size, hsize]; rfl
      · exact hsize
    · split
      · rename_i h6
        rw [if_pos h6, Image.cut_size] at hj
        exact Image.read_cut hwf (Nat.lt_min.1 hj).1
      · rfl
  · have hf : freeze e c = some e := by
      unfold freeze
      split
      · exact absurd (ho.symm.trans ‹_›) hc
      · exact if_pos ho
    exact ⟨e.bytes, ⟨ho ▸ hsize, fun _ _ => rfl⟩, by rw [hf, ← ho]⟩

/-! ### The bits of a word (R326, R337) -/

theorem wordByte_readEepromWord (m : Image) (w : Nat) {i : Nat} (hi : i < 8) :
    wordByte (readEepromWord m w) i = m.read (8 * w + i) := by
  have byteLt (j : Nat) : (m.read j).toNat < 256 := (m.read j).isLt
  have h0 := byteLt (8 * w)
  have h1 := byteLt (8 * w + 1)
  have h2 := byteLt (8 * w + 2)
  have h3 := byteLt (8 * w + 3)
  have h4 := byteLt (8 * w + 4)
  have h5 := byteLt (8 * w + 5)
  have h6 := byteLt (8 * w + 6)
  have h7 := byteLt (8 * w + 7)
  apply BitVec.eq_of_toNat_eq
  simp only [wordByte, readEepromWord, BitVec.extractLsb'_toNat, toNat_append_byte, Nat.shiftRight_eq_div_pow]
  interval_cases i
  all_goals
    simp only [Nat.reduceMul, Nat.reduceSub, Nat.reducePow, Nat.add_zero]
    omega

theorem getMsbD_eq_wordByte (d : BitVec 64) {j : Nat} (hj : j < 64) :
    d.getMsbD j = (wordByte d (j / 8)).getLsbD (7 - j % 8) := by
  rw [wordByte, BitVec.getLsbD_extractLsb', BitVec.getMsbD]
  simp only [hj, show 7 - j % 8 < 8 by omega, decide_true, Bool.true_and]
  congr 1
  omega

/-- The bits a read request answers, on a device with its bytes settled. -/
theorem msbBits_eepromData {e : Eeprom} {bits : AddrBits} {m : Image} (hm : SettledBytes e bits m)
    (a : AddrBits) (w : Nat) :
    msbBits (eepromData { e with addrBits := a, bytes := m } w) = (List.range 64).map fun j =>
      if w < (if bits = .six then 64 else 1024) then (e.bytes.read (8 * w + j / 8)).getLsbD (7 - j % 8)
      else true := by
  obtain ⟨hsize, hread⟩ := hm
  have hsize : m.size = 8 * if bits = .six then 64 else 1024 := by rw [hsize]; split <;> rfl
  have hw : eepromWords { e with addrBits := a, bytes := m } = if bits = .six then 64 else 1024 := by
    rw [eepromWords, hsize, Nat.mul_div_cancel_left _ (by decide)]
  refine List.map_congr_left fun j hj => ?_
  have hj := List.mem_range.1 hj
  rw [eepromData, hw]
  by_cases hlt : w < if bits = .six then 64 else 1024
  · rw [if_pos hlt, if_pos hlt, getMsbD_eq_wordByte _ hj, wordByte_readEepromWord _ _ (by omega),
      hread _ (by omega)]
  · rw [if_neg hlt, if_neg hlt, BitVec.getMsbD_allOnes]
    exact decide_eq_true hj

/-! ### The rows of the stream format -/

section
variable {s : State} {e : Eeprom} (hn : s.g2.nvs2 = .eeprom e) (g : s.cfg.gen = .gen2) (hp : e.pending = [])
  {n : Nat} {bits : AddrBits} (h : IsAddressLength n bits) (x : BitVec n) (stop : Option Bool) (d : BitVec 64)
include hn g hp h

theorem streams_dropped
    (hd : e.addrBits ≠ .unknown ∧ e.addrBits ≠ bits ∨ e.addrBits = bits ∧ e.busy.isSome = true) :
    callStream (readBits x stop) s = .next s ∧ callStream (writeBits x d stop) s = .next s := by
  have hk : e.addrBits ≠ .unknown := by
    obtain ⟨hk, -⟩ | ⟨hk, -⟩ := hd
    · exact hk
    · obtain ⟨-, rfl⟩ | ⟨-, rfl⟩ := h <;> rw [hk] <;> nofun
  have hd : e.addrBits ≠ bits ∨ e.busy.isSome = true := hd.imp And.right And.right
  rw [callStream_eeprom hn g hp, callStream_eeprom hn g hp,
    runStream_dropped hn (parseStream_readBits h x stop) hk (hd.imp_right .inl),
    runStream_dropped hn (parseStream_writeBits h x stop d) hk (hd.imp_right .inl)]
  exact ⟨rfl, rfl⟩

variable (hwf : e.bytes.wf = true) (he : eepromOk e) (ho : e.addrBits = .unknown ∨ e.addrBits = bits)
  (hb : e.busy = none)
include hwf he ho hb

/-- A read request stages a preamble of free bits and the bits of its word (R337). -/
theorem callStream_readBits : ∃ (m : Image) (pre : List Bool), SettledBytes e bits m
    ∧ pre.length = s.cfg.preambleBits
    ∧ callStream (readBits x stop) s = .next { withVariant s (.eeprom { e with
        addrBits := bits, bytes := m,
        staged := pre ++ (List.range 64).map fun j =>
          if x.toNat < (if bits = .six then 64 else 1024)
          then (e.bytes.read (8 * x.toNat + j / 8)).getLsbD (7 - j % 8) else true })
      with draws := s.draws + s.cfg.preambleBits } := by
  have hc : bits ≠ .unknown := by obtain ⟨-, rfl⟩ | ⟨-, rfl⟩ := h <;> nofun
  obtain ⟨m, hm, hr⟩ := runStream_settled (s := s) hwf he (parseStream_readBits h x stop) hc ho
  refine ⟨m, (drawBits s.cfg.preambleBits s).1, hm, by simp [drawBits], ?_⟩
  rw [callStream_eeprom hn g hp, hr, runCommand, if_neg (by simp [hb]), ← msbBits_eepromData hm bits]
  rfl

/-- A write puts the word in flight and lowers the ready flag (R338). -/
theorem callStream_writeBits : ∃ m : Image, SettledBytes e bits m
    ∧ callStream (writeBits x d stop) s = .next (withVariant s (.eeprom { e with
        addrBits := bits, bytes := m, staged := [], ready := false,
        busy := some { remaining := s.cfg.timing.eepromWrite, word := x.toNat, data := d } })) := by
  have hc : bits ≠ .unknown := by obtain ⟨-, rfl⟩ | ⟨-, rfl⟩ := h <;> nofun
  obtain ⟨m, hm, hr⟩ := runStream_settled (s := s) hwf he (parseStream_writeBits h x stop d) hc ho
  refine ⟨m, hm, ?_⟩
  rw [callStream_eeprom hn g hp, hr, runCommand, if_neg (by simp [hb])]
  rfl

end

/-! ### Frames of stream bits -/

/-- A frame of stream bits that is no row is run as a whole stream (log 7). -/
theorem step_badStream {s : State} {p : Pending} {rest : List Pending} {e : Eeprom} {l : List Bool}
    (g : s.cfg.gen = .gen2) (hc : constructionRefusal s.cfg = none) (hh : s.host.now ≤ p.host.now)
    (hs : s.pending = p :: rest) (hf : p.frame = streamFrame l) (hn : s.g2.nvs2 = .eeprom e)
    (hp : e.pending = []) (hl : NoCommand (dropStop l) ∨ OtherCommand (dropStop l)) :
    step s = .next (afterCall (runStream l e (takeCall p rest s))) := by
  have hcall := callStream_eeprom (s := takeCall p rest s) hn g hp l
  rw [step_of_pending_cons hs, runCall, callRefusal_of_legal hc hh, runFrame, hf, decode_badStream hl]
  simp only [notDecoded, hcall, bindR_next]

theorem eepromOk_of_storageOk {s : State} {e : Eeprom} (hn : s.g2.nvs2 = .eeprom e) (hs : StorageOk s) :
    eepromOk e := by rwa [StorageOk, hn] at hs

theorem eeprom_wf {s : State} {e : Eeprom} (hn : s.g2.nvs2 = .eeprom e) (hm : MemoryOk s) :
    e.bytes.wf = true := by
  have := nvs2_canonical hm
  rwa [hn, Nvs2.canonical_eeprom] at this

/-- The read/write bit of the other kind settles an unknown address length and does nothing else (log 20). -/
theorem runStream_unfit {s : State} {e : Eeprom} {l : List Bool} (hl : Unfit l) (hwf : e.bytes.wf = true)
    (he : eepromOk e) (hn : s.g2.nvs2 = .eeprom e) :
    let bits : AddrBits := if l.length ∈ [8, 9, 72, 73] then .six else .fourteen
    (e.addrBits ≠ .unknown → runStream l e s = s)
    ∧ (e.addrBits = .unknown → ∃ m, SettledBytes e bits m
      ∧ runStream l e s = withVariant s (.eeprom { e with addrBits := bits, bytes := m })) := by
  intro bits
  obtain ⟨c, hp, hfit, hbits⟩ := parseBits_of_otherCommand (otherCommand_of_unfit hl)
  have hbits : c.bits = bits := by
    have hlen : (dropStop l).length = 8 ∨ (dropStop l).length = 72 ↔ l.length ∈ [8, 9, 72, 73] := by
      rw [dropStop_length]
      simp only [List.mem_cons, List.not_mem_nil, or_false]
      split <;> omega
    rw [hbits]
    exact if_congr hlen rfl rfl
  have hc : c.bits ≠ .unknown := by rw [hbits]; unfold bits; split <;> nofun
  refine ⟨fun hk => runStream_dropped hn hp hk (.inr (.inr hfit)), fun hu => ?_⟩
  obtain ⟨m, hm, hr⟩ := runStream_settled (s := s) hwf he hp hc (.inl hu)
  rw [runCommand, if_pos (.inr hfit), hbits] at hr
  exact ⟨m, hbits ▸ hm, hr⟩

/-- Settles O54: by the command of the stream, and by the address length and the write the device has. -/
theorem eepromStreams : Obligations.EepromStreams := by
  refine ⟨fun s p rest e l g hc hh hs hf hn hp hl => ?_,
    fun s p rest e l g hc hh hm hok hs hf hn hp hl => ?_, fun s e six x stop d g hm hok hn hp => ?_⟩
  · have hl := noCommand_of_malformed hl
    rw [step_badStream g hc hh hs hf hn hp (.inl hl),
      runStream_of_noCommand (s := takeCall p rest s) hn hl]
    rfl
  · have hstep := step_badStream g hc hh hs hf hn hp (.inr (otherCommand_of_unfit hl))
    obtain ⟨known, unknown⟩ := runStream_unfit (s := takeCall p rest s) hl (eeprom_wf hn hm)
      (eepromOk_of_storageOk hn hok) hn
    refine ⟨fun hk => ?_, fun hu => ?_⟩
    · rw [hstep, known hk]
      rfl
    · obtain ⟨m, ⟨hsize, hread⟩, hr⟩ := unknown hu
      refine ⟨m, hsize, hread, ?_⟩
      rw [hstep, hr]
      rfl
  · have hwf := eeprom_wf hn hm
    have he := eepromOk_of_storageOk hn hok
    have h6 : IsAddressLength 6 .six := .inl ⟨rfl, rfl⟩
    have h14 : IsAddressLength 14 .fourteen := .inr ⟨rfl, rfl⟩
    have hx : (x.setWidth 6).toNat = x.toNat % 64 := BitVec.toNat_setWidth _ _
    cases six with
    | true =>
      refine ⟨streams_dropped hn g hp h6 _ stop d, fun ho hb => ?_⟩
      obtain ⟨m, pre, hm, hpre, hr⟩ := callStream_readBits hn g hp h6 (x.setWidth 6) stop hwf he ho hb
      obtain ⟨m', hm', hw⟩ := callStream_writeBits hn g hp h6 (x.setWidth 6) stop d hwf he ho hb
      rw [hx] at hr hw
      exact ⟨⟨m, pre, settledBytes_below hm rfl, hpre, hr⟩, m', settledBytes_below hm' rfl, hw⟩
    | false =>
      refine ⟨streams_dropped hn g hp h14 _ stop d, fun ho hb => ?_⟩
      obtain ⟨m, pre, hm, hpre, hr⟩ := callStream_readBits hn g hp h14 x stop hwf he ho hb
      obtain ⟨m', hm', hw⟩ := callStream_writeBits hn g hp h14 x stop d hwf he ho hb
      exact ⟨⟨m, pre, settledBytes_below hm rfl, hpre, hr⟩, m', settledBytes_below hm' rfl, hw⟩

end Sys2Proof.Machine
end

section
/-! PROOFS. The storage variant stays what it is once it is resolved and `load` is over
(43_storage_battery_eeprom.md R321, R346): every move keeps it. -/
namespace Sys2Proof.Machine

open Sys2Proof.Claims

/-! ### The same variant -/

theorem sameVariant_refl {n : Nvs2} (h : n ≠ .unresolved) : SameVariant n n := by
  cases n with
  | unresolved => exact absurd rfl h
  | batteryRam m => exact ⟨m, rfl, rfl⟩
  | eeprom e => exact ⟨e, rfl, fun _ => ⟨rfl, rfl⟩⟩
  | flash f => exact ⟨f, rfl, rfl, rfl⟩

theorem sameVariant_trans {n m o : Nvs2} (h : SameVariant n m) (h' : SameVariant m o) : SameVariant n o := by
  cases n with
  | unresolved => exact h.elim
  | batteryRam x =>
    obtain ⟨y, rfl, hy⟩ := h
    obtain ⟨z, rfl, hz⟩ := h'
    exact ⟨z, rfl, hz.trans hy⟩
  | eeprom e =>
    obtain ⟨d, rfl, hd⟩ := h
    obtain ⟨c, rfl, hc⟩ := h'
    refine ⟨c, rfl, fun hk => ?_⟩
    obtain ⟨ha, hs⟩ := hd hk
    obtain ⟨ha', hs'⟩ := hc (ha ▸ hk)
    exact ⟨ha'.trans ha, hs'.trans hs⟩
  | flash f =>
    obtain ⟨g, rfl, hs, hc⟩ := h
    obtain ⟨i, rfl, hs', hc'⟩ := h'
    exact ⟨i, rfl, hs'.trans hs, hc'.trans hc⟩

theorem resolved_of_sameVariant {n m : Nvs2} (h : SameVariant n m) : m ≠ .unresolved := by
  cases n with
  | unresolved => exact h.elim
  | batteryRam x => obtain ⟨y, rfl, -⟩ := h; nofun
  | eeprom e => obtain ⟨d, rfl, -⟩ := h; nofun
  | flash f => obtain ⟨g, rfl, -⟩ := h; nofun

/-! ### Operations of the storage device -/

/-- No command changes the identifier (44_storage_flash.md R371, R374 to R377). -/
theorem flashWrite_chipId {t : Timing} {o : Half} {v : Byte} {f f' : Flash}
    (h : flashWrite t o v f = .next f') : f'.chipId = f.chipId := by
  unfold flashWrite flashNotStarted flashStarting flashReady flashCommand at h
  repeat' split at h
  all_goals cases h <;> rfl

theorem storageWriteByte_sameVariant {o : Half} {v : Byte} {s t : State} (hu : s.g2.nvs2 ≠ .unresolved)
    (h : storageWriteByte o v s = .next t) : SameVariant s.g2.nvs2 t.g2.nvs2 := by
  cases hn : s.g2.nvs2 with
  | unresolved => exact absurd hn hu
  | batteryRam m =>
    rw [storageWriteByte_batteryRam hn] at h
    cases h
    exact ⟨_, rfl, Image.write_size ..⟩
  | eeprom e =>
    rw [storageWriteByte_eeprom hn] at h
    cases h
    rw [hn]
    exact sameVariant_refl nofun
  | flash f =>
    rw [storageWriteByte_flash hn] at h
    obtain ⟨g, hg, ht⟩ := bindR_eq_next.1 h
    cases ht
    exact ⟨g, rfl, congrArg Image.size (flashWrite_bytes hg), flashWrite_chipId hg⟩

theorem appendBit_sameVariant (b : Bool) {s : State} (hu : s.g2.nvs2 ≠ .unresolved) :
    SameVariant s.g2.nvs2 (appendBit b s).g2.nvs2 := by
  unfold appendBit
  split
  · rename_i e hn
    rw [hn]
    exact ⟨_, rfl, fun _ => ⟨rfl, rfl⟩⟩
  · exact sameVariant_refl hu

theorem drain_sameVariant (e : Eeprom) : SameVariant (.eeprom e) (.eeprom (drain e).2) := by
  refine ⟨_, rfl, fun _ => ?_⟩
  unfold drain
  split <;> exact ⟨rfl, rfl⟩

theorem runCommand_nvs2 (c : EepromCommand) (e : Eeprom) (s : State) :
    ∃ d, (runCommand c e s).g2.nvs2 = .eeprom d ∧ d.addrBits = e.addrBits ∧ d.bytes = e.bytes := by
  unfold runCommand
  repeat' split
  all_goals exact ⟨_, rfl, rfl, rfl⟩

/-- A known address length is not settled again (R346). -/
theorem freeze_known {e e' : Eeprom} {c : EepromCommand} (hk : e.addrBits ≠ .unknown)
    (h : freeze e c = some e') : e' = e := by
  unfold freeze at h
  split at h
  · exact absurd ‹_› hk
  · split at h <;> cases h
    rfl

theorem runStream_sameVariant (l : List Bool) (e : Eeprom) (s : State) :
    SameVariant (.eeprom e) (runStream l e s).g2.nvs2 := by
  unfold runStream
  split
  · exact sameVariant_refl nofun
  · split
    · exact sameVariant_refl nofun
    · rename_i c _ _ e' hf
      obtain ⟨d, hd, ha, hb⟩ := runCommand_nvs2 c e' s
      rw [hd]
      refine ⟨d, rfl, fun hk => ?_⟩
      rw [ha, hb, freeze_known hk hf]
      exact ⟨rfl, rfl⟩

theorem endStream_sameVariant {s : State} (hu : s.g2.nvs2 ≠ .unresolved) :
    SameVariant s.g2.nvs2 (endStream s).g2.nvs2 := by
  unfold endStream
  split
  · rename_i e hn
    rw [hn]
    exact runStream_sameVariant _ { e with pending := [] } s
  · exact sameVariant_refl hu

theorem flashAction_size (a : FlashAction) (m : Image) : (flashAction a m).size = m.size := by
  cases a <;> simp [flashAction]

theorem flashTick_sameVariant (f : Flash) : SameVariant (.flash f) (.flash (flashTick f)) := by
  refine ⟨_, rfl, ?_⟩
  unfold flashTick
  repeat' split
  · exact ⟨rfl, rfl⟩
  · exact ⟨flashAction_size _ _, rfl⟩
  · exact ⟨rfl, rfl⟩

theorem completeWrite_size (b : EepromBusy) (e : Eeprom) : (completeWrite b e).bytes.size = e.bytes.size := by
  unfold completeWrite
  dsimp only
  split <;> simp

theorem eepromTick_sameVariant (e : Eeprom) : SameVariant (.eeprom e) (.eeprom (eepromTick e)) := by
  refine ⟨_, rfl, fun _ => ?_⟩
  unfold eepromTick
  repeat' split
  · exact ⟨rfl, rfl⟩
  · exact ⟨rfl, completeWrite_size _ e⟩
  · exact ⟨rfl, rfl⟩

theorem nvs2Tick_sameVariant {n : Nvs2} (hu : n ≠ .unresolved) : SameVariant n (nvs2Tick n) := by
  cases n with
  | unresolved => exact absurd rfl hu
  | batteryRam m => exact sameVariant_refl hu
  | eeprom e => exact eepromTick_sameVariant e
  | flash f => exact flashTick_sameVariant f

/-! ### Every move -/

/-- The storage device and whether `load` may still be made. -/
def deviceAndLoad (s : State) : Bool × Nvs2 := (s.loadable, s.g2.nvs2)

/-- The end of a unit touches the storage device only by the end of the stream. -/
theorem afterUnit_deviceAndLoad (k : Chan) (s : State) :
    deviceAndLoad (afterUnit k s) = deviceAndLoad s
      ∨ deviceAndLoad (afterUnit k s) = deviceAndLoad (endStream s) := by
  have boundary : deviceAndLoad (streamBoundary k s) = deviceAndLoad s
      ∨ deviceAndLoad (streamBoundary k s) = deviceAndLoad (endStream s) := by
    unfold streamBoundary
    split
    · exact .inr rfl
    · exact .inl rfl
  have irq (u : State) : deviceAndLoad (requestIfIrq k u) = deviceAndLoad u := by
    unfold requestIfIrq
    split <;> rfl
  unfold afterUnit
  split
  · exact (show deviceAndLoad (dmaComplete k s) = _ from irq _) ▸ boundary
  · split
    · exact boundary
    · exact .inl rfl

/-- The variant that `n` is, resolved, after `load` is over. -/
def VariantKept (n : Nvs2) (s : State) : Prop := s.loadable = false ∧ SameVariant n s.g2.nvs2

theorem endStream_variantKept {n : Nvs2} {s : State} (hs : VariantKept n s) : VariantKept n (endStream s) := by
  obtain ⟨hl, hv⟩ := hs
  have hv' := endStream_sameVariant (resolved_of_sameVariant hv)
  rw [endStream_frame]
  exact ⟨hl, sameVariant_trans hv hv'⟩

theorem rearm_deviceAndLoad (k : Chan) (s : State) : deviceAndLoad (rearm k s) = deviceAndLoad s := by
  unfold rearm; split <;> rfl

theorem Move.variantKept {n : Nvs2} {s t : State} (h : Move s t) (hs : VariantKept n s) : VariantKept n t := by
  obtain ⟨hl, hv⟩ := hs
  have hu : s.g2.nvs2 ≠ .unresolved := resolved_of_sameVariant hv
  have keep {u : State} (hd : deviceAndLoad u = deviceAndLoad s) : VariantKept n u := by
    obtain ⟨h1, h2⟩ := Prod.mk.injEq .. ▸ hd
    exact ⟨h1.trans hl, h2 ▸ hv⟩
  cases h with
  | storage o v _ _ _ h =>
    have hs := storageWriteByte_sameVariant hu h
    rw [storageWriteByte_frame h]
    exact ⟨hl, sameVariant_trans hv hs⟩
  | sniffStorage _ _ _ _ h => exact absurd h hu
  | sniffEeprom _ _ h => exact absurd h hu
  | drain e _ _ he => exact ⟨hl, sameVariant_trans (he ▸ hv) (drain_sameVariant e)⟩
  | appendBit b _ _ =>
    have hs := appendBit_sameVariant b hu
    rw [appendBit_frame]
    exact ⟨hl, sameVariant_trans hv hs⟩
  | endStream _ _ => exact endStream_variantKept ⟨hl, hv⟩
  | storageTick _ _ => exact ⟨hl, sameVariant_trans hv (nvs2Tick_sameVariant hu)⟩
  | unitEnd k c₀ _ _ =>
    obtain hd | hd := afterUnit_deviceAndLoad k (setChan k (counted k c₀ (chan s k)) s)
    · exact keep hd
    · obtain ⟨h1, h2⟩ := Prod.mk.injEq .. ▸ hd
      obtain ⟨hl', hv'⟩ := endStream_variantKept (s := setChan k (counted k c₀ (chan s k)) s) ⟨hl, hv⟩
      exact ⟨h1.trans hl', h2 ▸ hv'⟩
  | load f _ _ h =>
    rw [callLoad, if_pos hl] at h
    cases h
  | control a v _ _ => exact keep (by rw [writeControl_frame]; rfl)
  | nvs1 o v _ _ => exact keep (by rw [writeNvs1_frame]; rfl)
  | dmaReg v _ _ => exact keep (by rw [writeDma_frame]; rfl)
  | vbk v _ _ => exact keep (by rw [writeVbk_frame]; rfl)
  | boot v _ _ => exact keep (by unfold writeBoot; split <;> rfl)
  | svbk v _ _ => exact keep (by rw [writeSvbk_frame]; rfl)
  | vdmaReg a v _ _ _ h => exact keep (by rw [writeVdmaReg_frame h]; rfl)
  | hblank _ _ => exact keep (by rw [vdmaHBlank_frame]; rfl)
  | oamUnit b _ _ _ => exact keep (by rw [oamNext_frame]; rfl)
  | normalize _ _ => exact keep (by rw [normalizedFor_frame]; rfl)
  | pal a w v _ _ => exact keep (by rw [writePal_frame]; rfl)
  | vram2 a w v _ _ => exact keep (by rw [writeVram2_frame]; rfl)
  | oam2 a w v _ _ => exact keep (by rw [writeOam2_frame]; rfl)
  | rearm k _ _ => exact keep (rearm_deviceAndLoad k s)
  | _ => exact keep rfl

/-- Settles O21: the variant is kept along the moves of a step, none of which is a `load`. -/
theorem resolvedVariantStays : Obligations.ResolvedVariantStays := by
  intro s t hl hu h
  exact (step_keeps (P := VariantKept s.g2.nvs2) (fun _ _ => Move.variantKept) (fun _ _ _ _ hs => hs)
    (fun _ hs => ⟨rfl, hs.2⟩) h ⟨hl, sameVariant_refl hu⟩).2

end Sys2Proof.Machine
end

section
/-! PROOFS. A channel of generation 2 after a unit, in the words of the statements (30_encoding.md R180,
47_dma_gen2.md R490, R496 to R498, R503, R510), and the cycle in which a channel moves a unit (R502, R504). -/
namespace Sys2Proof.Machine

open Sys2Proof.Safety Sys2Proof.Claims Sys2Proof.Laws.RoundTrip

/-! ### Fields of a control register (R180) -/

theorem field_eq_extract (h : Half) (i n : Nat) : field h i n = (h.extractLsb' i n).toNat := by
  rw [field, BitVec.extractLsb'_toNat, Nat.shiftRight_eq_div_pow]

theorem field_one_iff (h : Half) (i : Nat) : field h i 1 = 1 ↔ h.getLsbD i = true := by
  rw [field, BitVec.getLsbD, Nat.testBit_eq_decide_div_mod_eq, decide_eq_true_eq, Nat.pow_one]

theorem unitWidth_eq_unitOf (c : DmaChannel) : unitWidth c = Claims.unitOf c := by
  rw [unitWidth, Claims.unitOf]
  exact if_congr (by rw [Bool.or_eq_true, field_one_iff, widthBit]) rfl rfl

/-! ### Addresses and counts (R490, R496, R498) -/

/-- The addresses under the mask of a channel's sources. -/
def sourceSpace (k : Chan) : Nat := if k = .c0 then 0x8000000 else 0x10000000

/-- The addresses under the mask of a channel's destinations. -/
def destSpace (k : Chan) : Nat := if k = .c3 then 0x10000000 else 0x8000000

/-- The mask of the addresses below `size`. -/
def IsMaskOf (mask : BitVec 28) (size : Nat) : Prop :=
  (size = 0x8000000 ∨ size = 0x10000000) ∧ ∀ x : BitVec 28, (x &&& mask).toNat = x.toNat % size

theorem isMaskOf_pow {mask : BitVec 28} {n : Nat} (h : mask.toNat = 2 ^ n - 1) (hn : n = 27 ∨ n = 28) :
    IsMaskOf mask (2 ^ n) := by
  refine ⟨?_, fun x => ?_⟩
  · rcases hn with rfl | rfl <;> decide
  · rw [BitVec.toNat_and, h, Nat.and_two_pow_sub_one_eq_mod]

theorem srcMask_isMaskOf (k : Chan) : IsMaskOf (srcMask k) (sourceSpace k) := by
  cases k with
  | c0 => exact isMaskOf_pow (n := 27) rfl (.inl rfl)
  | c1 | c2 | c3 => exact isMaskOf_pow (n := 28) rfl (.inr rfl)

theorem dstMask_isMaskOf (k : Chan) : IsMaskOf (dstMask k) (destSpace k) := by
  cases k with
  | c3 => exact isMaskOf_pow (n := 28) rfl (.inr rfl)
  | c0 | c1 | c2 => exact isMaskOf_pow (n := 27) rfl (.inl rfl)

theorem stepAddr_eq_movedBy {mask : BitVec 28} {size : Nat} (hm : IsMaskOf mask size) (ctl : BitVec 2) (w : Width)
    (a : BitVec 28) :
    stepAddr ctl w.bytes a mask = BitVec.ofNat 28 (movedBy ctl.toNat w.bytes size a.toNat) := by
  obtain ⟨hs, hm⟩ := hm
  have h1 : ctl = 1 ↔ ctl.toNat = 1 := BitVec.toNat_inj.symm
  have h2 : ctl = 2 ↔ ctl.toNat = 2 := BitVec.toNat_inj.symm
  have hw : w.bytes ≤ 4 := by cases w <;> decide
  have ha := a.isLt
  apply BitVec.eq_of_toNat_eq
  rw [stepAddr, hm, movedBy, BitVec.toNat_ofNat]
  simp only [h1, h2]
  split
  · rw [BitVec.toNat_sub, BitVec.toNat_ofNat]
    rcases hs with rfl | rfl <;> omega
  · split
    · rcases hs with rfl | rfl <;> omega
    · rw [BitVec.toNat_add, BitVec.toNat_ofNat]
      rcases hs with rfl | rfl <;> omega

theorem dad_and_dstMask (k : Chan) (c : DmaChannel) : c.dad &&& dstMask k = BitVec.ofNat 28 (destOf k c) := by
  obtain ⟨hs, hm⟩ := dstMask_isMaskOf k
  have := c.dadL.value.isLt
  apply BitVec.eq_of_toNat_eq
  rw [hm, DmaChannel.dad, append_toNat, BitVec.toNat_setWidth, BitVec.toNat_ofNat, destOf]
  change _ % destSpace k = _ % destSpace k % _
  rcases hs with hs | hs <;> rw [hs] <;> omega

theorem unitCount_eq (k : Chan) (c : DmaChannel) :
    unitCount k c.fifo c.cntL.value = if c.fifo = true then 4 else unitsOf k c := by
  unfold unitCount unitsOf
  cases k <;> rfl

/-! ### A channel after a unit (R503, R510) -/

/-- A channel with its mark as a writer of the EEPROM window set or cleared (R331, R332). -/
def marked (b : Bool) (c : DmaChannel) : DmaChannel := { c with eepromWrote := b }

@[simp] theorem marked_remaining (b : Bool) (c : DmaChannel) : (marked b c).remaining = c.remaining := rfl
@[simp] theorem marked_stop (b : Bool) (c : DmaChannel) : (marked b c).stop = c.stop := rfl
@[simp] theorem marked_state (b : Bool) (c : DmaChannel) : (marked b c).state = c.state := rfl
@[simp] theorem marked_cntH (b : Bool) (c : DmaChannel) : (marked b c).cntH = c.cntH := rfl

/-- A channel whose unit counter has run out. -/
def counterOut (c : DmaChannel) : DmaChannel := { c with counter := 0 }

theorem unitWidth_counterOut (c : DmaChannel) : unitWidth (counterOut c) = Claims.unitOf c :=
  unitWidth_eq_unitOf (counterOut c)

/-- The adjustment of a unit, which may have marked the channel. -/
theorem counted_eq_unitDone (k : Chan) (c : DmaChannel) (b : Bool) :
    counted k (counterOut c) (marked b (counterOut c)) = marked b (unitDone k c) := by
  rw [counted, adjust, unitWidth_counterOut, stepAddr_eq_movedBy (srcMask_isMaskOf k),
    stepAddr_eq_movedBy (dstMask_isMaskOf k), srcCtl, destCtl, ← field_eq_extract, ← field_eq_extract]
  rfl

@[simp] theorem unitDone_remaining (k : Chan) (c : DmaChannel) : (unitDone k c).remaining = c.remaining - 1 := rfl
@[simp] theorem unitDone_stop (k : Chan) (c : DmaChannel) : (unitDone k c).stop = c.stop := rfl
@[simp] theorem unitDone_state (k : Chan) (c : DmaChannel) : (unitDone k c).state = c.state := rfl
@[simp] theorem unitDone_cntH (k : Chan) (c : DmaChannel) : (unitDone k c).cntH = c.cntH := rfl

theorem repeats_iff (c : DmaChannel) : repeats c = true ↔ field c.cntH.value 9 1 = 1
    ∧ field c.cntH.value 12 2 ≠ 0 ∧ field c.cntH.value 15 1 = 1 ∧ c.stop = false := by
  have ht : field c.cntH.value 12 2 ≠ 0 ↔ timing c.cntH.value ≠ 0 := by
    rw [field_eq_extract, ne_eq, ne_eq, ← BitVec.toNat_inj]
    rfl
  rw [field_one_iff, field_one_iff, ht]
  simp only [repeats, repeatBit, enableBit, Bool.and_eq_true, bne_iff_ne, Bool.not_eq_true', and_assoc]

theorem reloadDst_eq (k : Chan) (c : DmaChannel) : reloadDst k c
    = if field c.cntH.value 5 2 = 3 ∧ c.fifo = false then BitVec.ofNat 28 (destOf k c) else c.dst := by
  have hd : destCtl c.cntH.value = 3 ↔ field c.cntH.value 5 2 = 3 := by
    rw [field_eq_extract, ← BitVec.toNat_inj]
    rfl
  rw [reloadDst, dad_and_dstMask]
  exact if_congr (by rw [hd]) rfl rfl

theorem completed_eq_activationDone (k : Chan) (c : DmaChannel) : completed k c = activationDone k c := by
  rw [completed, activationDone, unitCount_eq, reloadDst_eq]
  exact if_congr (repeats_iff c) rfl rfl

theorem activationDone_marked (k : Chan) (c : DmaChannel) (b : Bool) :
    activationDone k (marked b c) = marked b (activationDone k c) := by
  rw [activationDone, activationDone, apply_ite (marked b)]
  rfl

theorem activationDone_state (k : Chan) (c : DmaChannel) : (activationDone k c).state ≠ .active := by
  unfold activationDone
  split <;> nofun

/-! ### The cycle of a unit (R502) -/

theorem winner_eq_some {c : Channels} {k : Chan} (h : (c.get k).state = .active)
    (hl : ∀ j : Chan, j.toNat < k.toNat → (c.get j).state ≠ .active) : winner c = some k := by
  have skip {j : Chan} (hj : j.toNat < k.toNat) {x y : Option Chan} :
      (if (c.get j).state = .active then x else y) = y := if_neg (hl j hj)
  cases k with
  | c0 => exact if_pos h
  | c1 => exact (skip (j := .c0) (by decide)).trans (if_pos h)
  | c2 => exact (skip (j := .c0) (by decide)).trans ((skip (j := .c1) (by decide)).trans (if_pos h))
  | c3 =>
    exact (skip (j := .c0) (by decide)).trans
      ((skip (j := .c1) (by decide)).trans ((skip (j := .c2) (by decide)).trans (if_pos h)))

/-- A channel after the second loop of a cycle that began with `c₀` in its place. -/
def afterStartings (t : Timing) (c₀ c : DmaChannel) : DmaChannel :=
  if c₀.state = .starting ∧ c.state = .starting then startCount t c else c

theorem runStarting_eq (k : Chan) (s₀ s : State) :
    runStarting k (isStarting s₀ k) s
      = setChan k (afterStartings s.cfg.timing (chan s₀ k) (chan s k)) s := by
  have h : isStarting s₀ k = true ↔ (chan s₀ k).state = .starting := beq_iff_eq
  simp only [runStarting, h, afterStartings]
  split
  · rfl
  · rw [setChan_chan]

theorem waited_eq (t : Timing) (c : DmaChannel) : waited t c = afterStartings t c c := by
  have h : c.counter - 1 = 0 ↔ c.counter = 1 := by omega
  simp only [waited, afterStartings, and_self, startCount, h]

/-- The channels after the second loop of a cycle that began with `c₀` in their place. -/
def allAfterStartings (t : Timing) (c₀ c : Channels) : Channels :=
  { c0 := afterStartings t c₀.c0 c.c0, c1 := afterStartings t c₀.c1 c.c1,
    c2 := afterStartings t c₀.c2 c.c2, c3 := afterStartings t c₀.c3 c.c3 }

theorem get_allAfterStartings (t : Timing) (c₀ c : Channels) (j : Chan) :
    (allAfterStartings t c₀ c).get j = afterStartings t (c₀.get j) (c.get j) := by
  cases j <;> rfl

theorem runStartings_eq (s₀ s : State) :
    runStartings s₀ s = with2 s { s.g2 with dma := allAfterStartings s.cfg.timing s₀.g2.dma s.g2.dma } := by
  simp only [runStartings, runStarting_eq, setChan_cfg]
  rfl

/-- The second loop of a cycle in which channel `k`, which was Active, changed and no other did. -/
theorem runStartings_worked {s t : State} {k : Chan} (hk : (chan s k).state = .active)
    (ht : ∀ j ≠ k, chan t j = chan s j) (hc : t.cfg = s.cfg) :
    ∃ d, runStartings s t = with2 t { t.g2 with dma := d } ∧ Worked s k (chan t k) d := by
  refine ⟨_, runStartings_eq s t, ?_, fun j hj => ?_⟩
  · rw [get_allAfterStartings]
    exact if_neg fun h => absurd (hk.symm.trans h.1) (by decide)
  · rw [get_allAfterStartings, hc, waited_eq]
    exact congrArg (afterStartings s.cfg.timing (chan s j)) (ht j hj)

theorem completionTick1_of_idle (s : State) : completionTick1 false s = s := by
  unfold completionTick1; split <;> rfl

/-- The cycle in which the unit of the channel at work is due. -/
theorem tick_unit {s : State} {k : Chan} (h : AtWork s k) (hc : (chan s k).counter = 1) :
    exec (.tick 1) s = bindR (dmaUnit k (setChan k (counterOut (chan s k)) s))
      fun t => .next (runStartings s (rearm k t)) := by
  obtain ⟨g, -, hb, ha, hl⟩ := h
  have hw : winner s.g2.dma = some k := winner_eq_some ha hl
  have hcount : chanCount k s = setChan k (counterOut (chan s k)) s := by rw [chanCount, hc]; rfl
  have hz : (chan s k).counter - 1 = 0 := by omega
  have htick : exec (.tick 1) s = bindR (tick1 s) .next := rfl
  rw [htick, bindR_pure]
  simp only [tick1, enginesTick1, g, dmaTick1, runActive, hw, runWinner, if_pos hz, hcount, bindR_assoc, bindR_next,
    hb, completionTick1_of_idle]

/-! ### The end of a unit (R503, R508, R510) -/

theorem runStream_setChan (l : List Bool) (e : Eeprom) (k : Chan) (c : DmaChannel) (s : State) :
    runStream l e (setChan k c s) = setChan k c (runStream l e s) := by
  unfold runStream runCommand
  repeat' split
  all_goals rfl

theorem endStream_setChan (k : Chan) (c : DmaChannel) (s : State) :
    endStream (setChan k c s) = setChan k c (endStream s) := by
  unfold endStream
  rw [setChan_g2_nvs2]
  split
  · exact runStream_setChan _ _ k c s
  · rfl

/-- The stream ends where the channel wrote the window. -/
theorem streamBoundary_marked (k : Chan) (c : DmaChannel) (s : State) :
    streamBoundary k (setChan k (marked true c) s) = setChan k (marked false c) (endStream s) := by
  have hc : (chan (setChan k (marked true c) s) k).eepromWrote = true := by rw [chan_setChan_same]; rfl
  rw [streamBoundary, if_pos hc, endStream_setChan, setChan_setChan, chan_setChan_same]
  rfl

/-- The state with the interrupt of a channel's last unit requested. -/
def requested (k : Chan) (c : DmaChannel) (s : State) : State := { s with outs := s.outs ++ requestOf k c }

/-- The request of a completion, by the control that the unit left. -/
theorem requestIfIrq_eq_requested {k : Chan} {c d : DmaChannel} (hr : c.remaining = 1)
    (hd : d.cntH = c.cntH) (s : State) :
    requestIfIrq k (setChan k d s) = setChan k d (requested k c s) := by
  rw [requestIfIrq, chan_setChan_same, hd, requested, requestOf]
  have hi : irqBit c.cntH.value = true ↔ field c.cntH.value 14 1 = 1 := (field_one_iff _ _).symm
  by_cases h : field c.cntH.value 14 1 = 1
  · rw [if_pos (hi.2 h), if_pos ⟨hr, h⟩]
    rfl
  · rw [if_neg (mt hi.1 h), if_neg fun hc => h hc.2, List.append_nil]

theorem requested_of_more {k : Chan} {c : DmaChannel} (hr : c.remaining ≠ 1) (s : State) : requested k c s = s := by
  rw [requested, requestOf, if_neg fun h => hr h.1, List.append_nil]

theorem rearm_of_not_active {k : Chan} {s : State} (h : (chan s k).state ≠ .active) : rearm k s = s := if_neg h

section
variable {k : Chan} {c : DmaChannel}

/-- The last unit of an activation which wrote the window ends the stream (43_storage_battery_eeprom.md R332)
and completes the activation. -/
theorem dmaComplete_marked (h1 : c.remaining = 1) (s : State) :
    dmaComplete k (setChan k (marked true (unitDone k c)) s)
      = setChan k (marked false (activationDone k (unitDone k c))) (requested k c (endStream s)) := by
  rw [dmaComplete, beforeReload, streamBoundary_marked, requestIfIrq_eq_requested h1 (by simp), chan_setChan_same,
    setChan_setChan, completed_eq_activationDone, activationDone_marked]

/-- So does a stop, without a request (R508). -/
theorem dmaHalt_marked (k : Chan) (c : DmaChannel) (s : State) :
    dmaHalt k (setChan k (marked true c) s) = setChan k (marked false (dmaStopped c)) (endStream s) := by
  rw [dmaHalt, streamBoundary_marked, chan_setChan_same, setChan_setChan]
  rfl

theorem afterUnit_ends (hu : 1 ≤ c.remaining) (he : Ends c) (s : State) :
    rearm k (afterUnit k (setChan k (marked true (unitDone k c)) s))
      = setChan k (marked false (afterNextUnit s.cfg.timing k c)) (requested k c (endStream s)) := by
  rw [afterUnit, chan_setChan_same, marked_remaining, marked_stop, unitDone_remaining, unitDone_stop, afterNextUnit]
  by_cases h1 : c.remaining = 1
  · rw [if_pos (by omega), if_pos h1, dmaComplete_marked h1, rearm_of_not_active]
    rw [chan_setChan_same]
    exact activationDone_state k _
  · have hs : c.stop = true := he.resolve_left h1
    rw [if_neg (by omega), if_neg h1, if_pos hs, if_pos hs, dmaHalt_marked, requested_of_more h1,
      rearm_of_not_active]
    · rfl
    · rw [chan_setChan_same]
      nofun

/-- A unit that does not end its activation leaves the channel Active, its unit counter started again. -/
theorem afterUnit_goesOn (hu : 1 ≤ c.remaining) (ha : c.state = .active) (he : ¬ Ends c) (b : Bool) (s : State) :
    rearm k (afterUnit k (setChan k (marked b (unitDone k c)) s))
      = setChan k (marked b (afterNextUnit s.cfg.timing k c)) (requested k c s) := by
  obtain ⟨h1, hs⟩ := not_or.1 he
  rw [afterUnit, chan_setChan_same, marked_remaining, marked_stop, unitDone_remaining, unitDone_stop,
    if_neg (by omega), if_neg hs, rearm, chan_setChan_same, if_pos (by simpa using ha), setChan_setChan,
    requested_of_more h1, afterNextUnit, if_neg h1, if_neg hs]
  rfl

end

end Sys2Proof.Machine
end

section
/-! PROOFS. The EEPROM window (20_memory.md R106; 43_storage_battery_eeprom.md R329 to R332, R339, R340, R344;
48_persistence.md R566): the bits a write feeds and a read drains, and the unit of a channel that feeds it. -/
namespace Sys2Proof.Machine

open Sys2Proof.Safety Sys2Proof.Claims

/-! ### Bits in (R331, R566) -/

/-- The state in which channel `k` has written the bits `l` to the window of the Eeprom `e`. -/
def fedBy (k : Chan) (l : List Bool) (e : Eeprom) (s : State) : State :=
  withVariant (withChan s k (marked true (chan s k))) (.eeprom { e with pending := e.pending ++ l })

theorem fedBy_nvs2 (k : Chan) (l : List Bool) (e : Eeprom) (s : State) :
    (fedBy k l e s).g2.nvs2 = .eeprom { e with pending := e.pending ++ l } := rfl

theorem chan_fedBy (k : Chan) (l : List Bool) (e : Eeprom) (s : State) :
    chan (fedBy k l e s) k = marked true (chan s k) := Channels.get_set_same _ _ _

theorem setChan_fedBy (k : Chan) (c : DmaChannel) (l : List Bool) (e : Eeprom) (s : State) :
    setChan k c (fedBy k l e s) = setChan k c (withVariant s (.eeprom { e with pending := e.pending ++ l })) := by
  cases k <;> rfl

theorem fedBy_fedBy (k : Chan) (l l' : List Bool) (e : Eeprom) (s : State) :
    fedBy k l' { e with pending := e.pending ++ l } (fedBy k l e s) = fedBy k (l ++ l') e s := by
  simp only [fedBy, List.append_assoc]
  cases k <;> rfl

section
variable {s : State} {e : Eeprom} {k : Chan} {a : Word}

theorem cartWrite16_feeds (hn : s.g2.nvs2 = .eeprom e) (h : InWindow s a.toNat) (d mask : Half) :
    cartWrite16 (.chan k) a d mask s = .next (fedBy k [d.getLsbD 0] e s) := by
  have hb : windowBit k d s = fedBy k [d.getLsbD 0] e s := by
    rw [windowBit, if_neg (by rw [hn]; nofun), eepromBitIn, appendBit, hn]
    rfl
  simp only [cartWrite16, inEepromWindow_iff.2 h, hn, if_true, hb]

theorem cartWrite16_cpu (hn : s.g2.nvs2 = .eeprom e) (h : InWindow s a.toNat) (d mask : Half) :
    cartWrite16 .cpu a d mask s = .refused .eepromCpuWrite := by
  simp only [cartWrite16, inEepromWindow_iff.2 h, hn, if_true]

/-- A byte in an odd lane leaves a 0 in the bit that the Eeprom takes (40_register.md R203). -/
theorem byteData_getLsbD_zero (a v : Word) :
    (byteData a v).getLsbD 0 = (decide (a.toNat % 2 = 0) && v.getLsbD 0) := by
  have ha : a.getLsbD 0 = decide (a.toNat % 2 = 1) := Nat.testBit_zero _
  rw [byteData, ha]
  rcases Nat.mod_two_eq_zero_or_one a.toNat with h2 | h2
  · rw [h2, if_neg (by decide), BitVec.getLsbD_append]
    simp
  · rw [h2, if_pos (by decide), BitVec.getLsbD_append]
    simp

/-- A write of the window is one of halfwords in it. -/
theorem write2_inWindow (h : InWindow s a.toNat) (m : Master) (w : Width) (v : Word) :
    write2 m a w v s = compose16W (cartWrite16 m) (align w a) w v s := by
  have hp := page_toNat a
  have hr : 0x0D000000 ≤ a.toNat ∧ a.toNat ≤ 0x0DFFFFFF := by
    unfold InWindow at h
    split at h <;> omega
  rw [write2, if_neg (by bv_omega), if_neg (by bv_omega), if_pos (by bv_omega)]

theorem write2_feeds (hn : s.g2.nvs2 = .eeprom e) (h : InWindow s a.toNat) (w : Width) (v : Word) :
    write2 (.chan k) a w v s = .next (fedBy k (bitsWritten w a.toNat v) e s) := by
  have at_word {u : Word} (hu : u.toNat / 4 = a.toNat / 4) (d mask : Half) :=
    cartWrite16_feeds (k := k) hn ((inWindow_of_same_word hu).2 h) d mask
  rw [write2_inWindow h]
  cases w with
  | b1 =>
    have hw := at_word (u := a &&& 0xFFFFFFFE) (align_div4 .b2 a) (byteData a v) (byteMask a)
    rw [byteData_getLsbD_zero] at hw
    exact hw
  | b2 =>
    rw [compose16W, at_word (align_div4 .b2 a)]
    simp [bitsWritten]
  | b4 =>
    have next (d mask : Half) := cartWrite16_feeds (k := k) (a := align .b4 a + 2)
      (fedBy_nvs2 k [v.getLsbD 0] e s) ((inWindow_of_same_word (align_b4_add2_div4 a)).2 h) d mask
    have h0 : (v.setWidth 16 : Half).getLsbD 0 = v.getLsbD 0 := by simp
    have h16 : (v.extractLsb' 16 16).getLsbD 0 = v.getLsbD 16 := by simp
    rw [compose16W, at_word (align_div4 .b4 a), bindR_next, h0, next, fedBy_fedBy, h16]
    rfl

/-- 48_persistence.md R566: a write by a channel first selects an Eeprom where no variant is resolved. -/
theorem write2_sniffs (hn : s.g2.nvs2 = .unresolved) (h : InWindow s a.toNat) (w : Width) (v : Word) :
    write2 (.chan k) a w v s = write2 (.chan k) a w v (setNvs2 (.eeprom sniffedEeprom) s) := by
  have at_word {u : Word} {d mask : Half} (hu : u.toNat / 4 = a.toNat / 4) :
      cartWrite16 (.chan k) u d mask s = cartWrite16 (.chan k) u d mask (setNvs2 (.eeprom sniffedEeprom) s) := by
    have hw := inEepromWindow_iff.2 ((inWindow_of_same_word hu).2 h)
    simp only [cartWrite16, hn, hw, windowBit, if_true, setNvs2_cfg, setNvs2_g2_nvs2, reduceCtorEq, if_false]
  rw [write2_inWindow h, write2_inWindow (s := setNvs2 (.eeprom sniffedEeprom) s) h]
  cases w with
  | b1 => exact at_word (mask := byteMask a) (align_div4 .b2 a)
  | b2 => exact at_word (mask := 0xFFFF) (align_div4 .b2 a)
  | b4 => rw [compose16W, compose16W, at_word (align_div4 .b4 a)]

/-- A write of the CPU to an Eeprom is refused (R344). -/
theorem write2_cpu_refused (hn : s.g2.nvs2 = .eeprom e) (h : InWindow s a.toNat) (w : Width) (v : Word) :
    write2 .cpu a w v s = .refused .eepromCpuWrite := by
  have at_word {u : Word} {d mask : Half} (hu : u.toNat / 4 = a.toNat / 4) :=
    cartWrite16_cpu hn ((inWindow_of_same_word hu).2 h) d mask
  rw [write2_inWindow h]
  cases w with
  | b1 => exact at_word (mask := byteMask a) (align_div4 .b2 a)
  | b2 => exact at_word (mask := 0xFFFF) (align_div4 .b2 a)
  | b4 => rw [compose16W, at_word (align_div4 .b4 a), bindR_refused]

/-! ### Bits out (R339, R340) -/

theorem drain_eq_drained (e : Eeprom) :
    drain e = (BitVec.ofNat 16 (drained e).1, (drained e).2) := by
  cases e with
  | mk bytes addrBits pending staged ready busy =>
    cases staged with
    | nil => cases ready <;> rfl
    | cons b r => cases b <;> rfl

theorem drained_le_one (e : Eeprom) : (drained e).1 ≤ 1 := by
  unfold drained
  repeat' split
  all_goals simp

theorem cartRead16_drains (hn : s.g2.nvs2 = .eeprom e) (h : InWindow s a.toNat) :
    cartRead16 a s = (BitVec.ofNat 16 (drained e).1, setNvs2 (.eeprom (drained e).2) s) := by
  rw [cartRead16, hn]
  simp only [inEepromWindow_iff.2 h, if_true, drain_eq_drained]

theorem compose16_drains (hn : s.g2.nvs2 = .eeprom e) (h : InWindow s a.toNat) (w : Width) :
    compose16 cartRead16 (align w a) w s
      = ((drainedBy w a.toNat e).1, setNvs2 (.eeprom (drainedBy w a.toNat e).2) s) := by
  have at_word {u : Word} (hu : u.toNat / 4 = a.toNat / 4) :=
    cartRead16_drains hn ((inWindow_of_same_word hu).2 h)
  have hle := drained_le_one e
  have hbit {n : Nat} (hn : n ≤ 1) : (BitVec.ofNat 16 n).toNat = n := by
    rw [BitVec.toNat_ofNat]
    omega
  cases w with
  | b1 =>
    have hw := at_word (u := a &&& 0xFFFFFFFE) (align_div4 .b2 a)
    simp only [compose16, align, hw, laneByte_eq, hbit hle, drainedBy]
    rcases Nat.mod_two_eq_zero_or_one a.toNat with h2 | h2
    · rw [h2, if_pos rfl, Nat.pow_zero, Nat.div_one, Nat.mod_eq_of_lt (by omega)]
    · rw [h2, if_neg (by decide), Nat.pow_one, Nat.div_eq_of_lt (by omega)]
      rfl
  | b2 =>
    rw [compose16, at_word (align_div4 .b2 a)]
    have hwide : (BitVec.ofNat 16 (drained e).1).setWidth 32 = BitVec.ofNat 32 (drained e).1 := by
      apply BitVec.eq_of_toNat_eq
      rw [BitVec.toNat_setWidth, hbit hle, BitVec.toNat_ofNat]
    simp only [hwide, drainedBy]
  | b4 =>
    have next := cartRead16_drains (s := setNvs2 (.eeprom (drained e).2) s) (a := align .b4 a + 2) rfl
      ((inWindow_of_same_word (align_b4_add2_div4 a)).2 h)
    rw [compose16, at_word (align_div4 .b4 a)]
    simp only [next, append_eq_ofNat, hbit hle, hbit (drained_le_one _), drainedBy]
    rfl

end

/-! ### The rows -/

theorem bitsWritten_congr {w : Width} {a b : Nat} (h : a % 2 = b % 2) (v : Word) :
    bitsWritten w a v = bitsWritten w b v := by
  cases w <;> simp [bitsWritten, h]

theorem bitsWritten_cut (w : Width) (a : Nat) (v : Word) : bitsWritten w a (w.cut v) = bitsWritten w a v := by
  cases w <;> simp [bitsWritten, Width.cut]

theorem drainedBy_congr {w : Width} {a b : Nat} (h : a % 2 = b % 2) (e : Eeprom) :
    drainedBy w a e = drainedBy w b e := by
  cases w <;> simp [drainedBy, h]

/-- Every row that feeds the window is the write of its address by the channel. -/
theorem exec_windowFeeds {k : Chan} {a : BitVec 24} {w : Width} {v : Word} {i : Instr}
    (hi : i ∈ windowFeeds k a w v) (s : State) :
    exec i s = callWrite (.chan k) (eepromAddr a) w (w.cut v) s := by
  cases w with
  | b1 | b4 =>
    obtain rfl := List.mem_singleton.1 hi
    exact exec_writeRow _ _ _ _ s
  | b2 =>
    simp only [windowFeeds, List.mem_cons, List.not_mem_nil, or_false] at hi
    obtain rfl | rfl | rfl := hi
    · exact exec_writeRow _ _ _ _ s
    · rfl
    · rfl

theorem eepromAddr_parity (a : BitVec 24) : (eepromAddr a).toNat % 2 = a.toNat % 2 := by
  rw [eepromAddr_toNat]
  omega

/-- The other variants ignore a write of the page (R566). -/
theorem write2_window_other {s : State} {m : Master} (hn : s.g2.nvs2 ≠ .unresolved)
    (he : ∀ e, s.g2.nvs2 ≠ .eeprom e)
    (a : BitVec 24) (w : Width) (v : Word) : write2 m (eepromAddr a) w v s = .next s := by
  have := a.isLt
  have := eepromAddr_toNat a
  exact write2_rom (by omega) (by omega) (fun hr => hr.2.elim he) (.inr (.inr hn)) v

section
variable {s : State} {a : BitVec 24} (h : InWindow s (0x0D000000 + a.toNat))
include h

theorem inWindow_eepromAddr : InWindow s (eepromAddr a).toNat := by rwa [eepromAddr_toNat]

theorem write2_window_feeds {e : Eeprom} (hn : s.g2.nvs2 = .eeprom e) (k : Chan) (w : Width) (v : Word) :
    write2 (.chan k) (eepromAddr a) w (w.cut v) s = .next (fedBy k (bitsWritten w a.toNat v) e s) := by
  rw [write2_feeds hn (inWindow_eepromAddr h), bitsWritten_cut, bitsWritten_congr (eepromAddr_parity a)]

theorem read2_window_drains {e : Eeprom} (hn : s.g2.nvs2 = .eeprom e) (m : Master) (k : AccessKind) (w : Width) :
    read2 m k (eepromAddr a) w s
      = ((drainedBy w a.toNat e).1, withVariant s (.eeprom (drainedBy w a.toNat e).2)) := by
  rw [read2_eeprom, compose16_drains hn (inWindow_eepromAddr h), drainedBy_congr (eepromAddr_parity a)]
  rfl

end

/-! ### The unit of a channel that feeds the window (R331, R332) -/

/-- The end of a cycle in which channel `k`, which was at work, became `c` and no other channel changed. -/
theorem runStartings_setChan {s u : State} {k : Chan} (hk : (chan s k).state = .active)
    (hd : u.g2.dma = s.g2.dma) (hc : u.cfg = s.cfg) (c : DmaChannel) :
    ∃ d, runStartings s (setChan k c u) = with2 u { u.g2 with dma := d } ∧ Worked s k c d := by
  have other (j : Chan) (hj : j ≠ k) : chan (setChan k c u) j = chan s j := by
    rw [chan_setChan_other j k c u hj, chan, hd, chan]
  obtain ⟨d, hr, hw⟩ := runStartings_worked hk other hc
  rw [chan_setChan_same] at hw
  exact ⟨d, hr, hw⟩

theorem toNat_address (a : BitVec 28) : (a.setWidth 32 : Word).toNat = a.toNat := by
  rw [BitVec.toNat_setWidth]
  have := a.isLt
  omega

/-- What a unit reads from the first work RAM. -/
theorem unitRead_ewram {s : State} {k : Chan} (hi : (chan s k).srcInvalid = false)
    (hp : (chan s k).src.toNat / 0x1000000 = 2) : unitRead k s = (unitValue s (chan s k), s) := by
  have ha := toNat_address (chan s k).src
  rw [unitRead, if_neg (by rw [hi]; decide), read2_ram (r := .ewram) (by rw [ha]; exact hp), readLE_eq_leValue, ha,
    unitWidth_eq_unitOf]
  rfl

/-- The unit of a channel whose counter has run out, from the first work RAM into the window of an Eeprom. -/
theorem dmaUnit_feeds {s : State} {k : Chan} {c : DmaChannel} {e : Eeprom} (hk : chan s k = c)
    (hn : s.g2.nvs2 = .eeprom e) (hr : 1 ≤ c.remaining) (hi : c.srcInvalid = false)
    (hp : c.src.toNat / 0x1000000 = 2) (hw : InWindow s c.dst.toNat) :
    dmaUnit k (setChan k (counterOut c) s)
      = .next (afterUnit k (setChan k (marked true (unitDone k c)) (withVariant s (.eeprom
          { e with pending := e.pending ++ bitsWritten (Claims.unitOf c) c.dst.toNat (unitValue s c) })))) := by
  have hc : chan (setChan k (counterOut c) s) k = counterOut c := chan_setChan_same ..
  have hread : unitRead k (setChan k (counterOut c) s) = (unitValue s c, setChan k (counterOut c) s) := by
    rw [unitRead_ewram (by rw [hc]; exact hi) (by rw [hc]; exact hp), hc]
    rfl
  have ha : ((counterOut c).dst.setWidth 32 : Word).toNat = c.dst.toNat := toNat_address c.dst
  have hwrite : unitWrite k (unitValue s c) (setChan k (counterOut c) s) = .next (fedBy k
      (bitsWritten (Claims.unitOf c) c.dst.toNat (unitValue s c)) e (setChan k (counterOut c) s)) := by
    rw [unitWrite, hc, write2_feeds (s := setChan k (counterOut c) s) hn (by rw [ha]; exact hw), ha,
      unitWidth_counterOut]
  rw [dmaUnit, hc, if_neg (show ¬ (counterOut c).remaining = 0 from Nat.one_le_iff_ne_zero.1 hr), hread, hwrite,
    bindR_next, chan_fedBy, hc, counted_eq_unitDone, setChan_fedBy]
  cases k <;> rfl

/-- Settles O53: the window's halfwords one by one, and the cycle of a unit that writes it. -/
theorem eepromWindowBits : Obligations.EepromWindowBits := by
  refine ⟨fun s e a hw => ⟨fun k w v h i hi => ?_, fun hn m w h => ?_, fun hn h w v => ?_⟩,
    fun s e k h _ _ hok hn => ?_⟩
  · rw [exec_windowFeeds hi, callWrite_open2 h]
    refine ⟨fun hn => write2_window_feeds hw hn k w v, fun hn => ?_, fun hn => ?_⟩
    · rw [write2_sniffs hn (inWindow_eepromAddr hw)]
      exact write2_window_feeds (s := setNvs2 (.eeprom sniffedEeprom) s) hw rfl k w v
    · obtain ⟨m, hn⟩ | ⟨f, hn⟩ := hn <;>
        exact write2_window_other (by rw [hn]; nofun) (by rw [hn]; nofun) a w _
  · exact (callRead_open2 h .data (eepromAddr a) w).trans (by rw [read2_window_drains hw hn]; rfl)
  · exact (callWrite_open2 h (eepromAddr a) w v).trans (write2_cpu_refused hn (inWindow_eepromAddr hw) w v)
  · intro c hc hi hp hw fed after
    have ha : c.state = .active := by obtain ⟨-, -, -, ha, -⟩ := h; exact ha
    have hu : 1 ≤ c.remaining := (hok k).2 (by rw [ha]; decide)
    have htick := tick_unit h hc
    rw [dmaUnit_feeds rfl hn hu hi hp hw, bindR_next] at htick
    refine ⟨fun he => ?_, fun he => ?_⟩
    · rw [afterUnit_ends hu he] at htick
      obtain ⟨d, hr, hd⟩ := runStartings_setChan (u := requested k c (endStream fed)) ha (endStream_dma fed)
        (endStream_cfg fed) (marked false (afterNextUnit s.cfg.timing k c))
      exact ⟨d, htick.trans (congrArg _ hr), hd⟩
    · rw [afterUnit_goesOn hu ha he] at htick
      obtain ⟨d, hr, hd⟩ := runStartings_setChan (u := requested k c fed) ha rfl rfl
        (marked true (afterNextUnit s.cfg.timing k c))
      exact ⟨d, htick.trans (congrArg _ hr), hd⟩

end Sys2Proof.Machine
end

section
/-! PROOFS. The storage device of generation 2 stays as its rules say (43_storage_battery_eeprom.md R327,
R328, R341; 44_storage_flash.md R371, R372, R385), and a block with an override stays resolved (R321,
48_persistence.md R562). -/
namespace Sys2Proof.Machine

open Sys2Proof.Safety

/-! ### What a move does to the storage device -/

/-- What a move may leave of the storage device of `s`. -/
inductive DeviceMove (s : State) : Nvs2 → Prop
  | same : DeviceMove s s.g2.nvs2
  | write (o : Half) (v : Byte) (t : State) (h : storageWriteByte o v s = .next t) : DeviceMove s t.g2.nvs2
  | sniffStorage (o : Half) (v : Byte) : DeviceMove s (sniffStorage o v s).g2.nvs2
  | sniffEeprom : DeviceMove s (.eeprom sniffedEeprom)
  | drain (e : Eeprom) (h : s.g2.nvs2 = .eeprom e) : DeviceMove s (.eeprom (drain e).2)
  | appendBit (b : Bool) : DeviceMove s (appendBit b s).g2.nvs2
  | endStream : DeviceMove s (endStream s).g2.nvs2
  | tick : DeviceMove s (nvs2Tick s.g2.nvs2)
  | load (f : SaveFile) (t : State) (h : callLoad f s = .next t) : DeviceMove s t.g2.nvs2

theorem Move.device {s t : State} (h : Move s t) : DeviceMove s t.g2.nvs2 := by
  have keep {u : State} (hd : u.g2.nvs2 = s.g2.nvs2) : DeviceMove s u.g2.nvs2 := hd ▸ .same
  cases h with
  | storage o v _ _ _ h => exact .write o v _ h
  | sniffStorage o v _ _ _ => exact .sniffStorage o v
  | sniffEeprom _ _ _ => exact .sniffEeprom
  | drain e _ _ he => exact .drain e he
  | appendBit b _ _ => exact .appendBit b
  | endStream _ _ => exact .endStream
  | storageTick _ _ => exact .tick
  | load f _ _ h => exact .load f _ h
  | unitEnd k c₀ _ _ =>
    obtain hd | hd := afterUnit_deviceAndLoad k (setChan k (counted k c₀ (chan s k)) s)
    · exact keep (Prod.ext_iff.1 hd).2
    · have hn := (Prod.ext_iff.1 hd).2
      simp only [endStream_setChan, deviceAndLoad, setChan_g2_nvs2] at hn
      exact hn ▸ .endStream
  | rearm k _ _ => exact keep (Prod.ext_iff.1 (rearm_deviceAndLoad k s)).2
  | control a v _ _ => exact keep (by rw [writeControl_frame])
  | nvs1 o v _ _ => exact keep (by rw [writeNvs1_frame])
  | dmaReg v _ _ => exact keep (by rw [writeDma_frame])
  | vbk v _ _ => exact keep (by rw [writeVbk_frame])
  | boot v _ _ => exact keep (by rw [writeBoot_g2])
  | svbk v _ _ => exact keep (by rw [writeSvbk_frame])
  | vdmaReg a v _ _ _ h => exact keep (by rw [writeVdmaReg_frame h]; rfl)
  | hblank _ _ => exact keep (by rw [vdmaHBlank_frame]; rfl)
  | oamUnit b _ _ _ => exact keep (by rw [oamNext_frame]; rfl)
  | normalize _ _ => exact keep (by rw [normalizedFor_frame]; rfl)
  | pal a w v _ _ => exact keep (by rw [writePal_frame])
  | vram2 a w v _ _ => exact keep (by rw [writeVram2_frame])
  | oam2 a w v _ _ => exact keep (by rw [writeOam2_frame])
  | _ => exact keep rfl

/-! ### The flash (44_storage_flash.md R371, R372, R385) -/

theorem flashOk_freshFlash (c : Config) {m : Image} (hm : m.size = 0x10000 ∨ m.size = 0x20000) :
    flashOk c (freshFlash c m) :=
  ⟨hm, rfl, fun _ => rfl, nofun, nofun⟩

section
variable {c : Config} {f : Flash} (hf : flashOk c f)
include hf

/-- A flash that no command is open on any more keeps the invariant, the bank switched only on a dual bank. -/
theorem flashOk_closed {g : Flash} (hs : g.state ≠ .command) (hl : g.last = .bankSwitch → f.last = .bankSwitch)
    (hsize : g.bytes.size = f.bytes.size) (hi : g.chipId = f.chipId)
    (hb : g.bank = f.bank ∨ f.bytes.size = 0x20000) : flashOk c g := by
  obtain ⟨size, chip, bank, -, dual⟩ := hf
  refine ⟨hsize ▸ size, by rw [hi, hsize, chip], fun h => ?_, (absurd · hs), fun h => hsize ▸ dual (hl h)⟩
  rw [hsize] at h
  obtain hb | hb := hb
  · exact hb.trans (bank h)
  · omega

theorem flashOk_unrecognized : flashOk c (unrecognized f) := flashOk_closed hf nofun nofun rfl rfl (.inl rfl)

theorem flashOk_commandOpen {x : FlashCommand} (hx : x = .program ∨ x = .bankSwitch ∧ f.bytes.size = 0x20000) :
    flashOk c (commandOpen x f) := by
  obtain ⟨size, chip, bank, -, -⟩ := hf
  refine ⟨size, chip, bank, fun _ => hx.imp id And.left, fun h => ?_⟩
  obtain rfl | ⟨-, hd⟩ := hx
  · cases h
  · exact hd

theorem flashOk_flashNotStarted (o : Half) (v : Byte) : flashOk c (flashNotStarted o v f) := by
  unfold flashNotStarted
  split
  · exact flashOk_closed hf nofun id rfl rfl (.inl rfl)
  · exact flashOk_unrecognized hf

theorem flashOk_flashStarting (o : Half) (v : Byte) : flashOk c (flashStarting o v f) := by
  unfold flashStarting
  split
  · exact flashOk_closed hf nofun id rfl rfl (.inl rfl)
  · exact flashOk_unrecognized hf

theorem flashOk_flashReady (t : Timing) (o : Half) (v : Byte) : flashOk c (flashReady t o v f) := by
  unfold flashReady
  repeat' split
  case isFalse.isFalse.isFalse.isFalse.isFalse.isTrue => exact flashOk_commandOpen hf (.inl rfl)
  case isFalse.isFalse.isFalse.isFalse.isFalse.isFalse.isTrue h =>
    obtain ⟨-, -, hd⟩ := h
    exact flashOk_commandOpen hf (.inr ⟨rfl, hd⟩)
  all_goals exact flashOk_closed hf nofun nofun rfl rfl (.inl rfl)

theorem flashOk_flashCommand {t : Timing} {o : Half} {v : Byte} {g : Flash}
    (h : flashCommand t o v f = .next g) : flashOk c g := by
  have dual : f.last = .bankSwitch → f.bytes.size = 0x20000 := by obtain ⟨-, -, -, -, dual⟩ := hf; exact dual
  unfold flashCommand at h
  split at h
  · cases h
    exact flashOk_closed hf nofun id rfl rfl (.inl rfl)
  split at h
  · rename_i hl
    split at h <;> cases h
    · exact flashOk_closed hf nofun id rfl rfl (.inr (dual hl))
    · exact flashOk_unrecognized hf
  · cases h

theorem flashOk_flashWrite {t : Timing} {o : Half} {v : Byte} {g : Flash} (h : flashWrite t o v f = .next g) :
    flashOk c g := by
  unfold flashWrite at h
  split at h
  · cases h; exact hf
  split at h
  · cases h; exact flashOk_flashNotStarted hf o v
  · cases h; exact flashOk_flashStarting hf o v
  · cases h; exact flashOk_flashReady hf t o v
  · exact flashOk_flashCommand hf h

theorem flashOk_flashTick : flashOk c (flashTick f) := by
  unfold flashTick
  split
  · exact hf
  split
  · rw [flashOk]
    dsimp only
    rw [flashAction_size]
    exact hf
  · exact hf

end

/-! ### The EEPROM (43_storage_battery_eeprom.md R327, R328, R341) -/

theorem eepromOk_freshEeprom {bits : AddrBits} {m : Image} (hm : m.size = if bits = .six then 512 else 8192) :
    eepromOk (freshEeprom bits m) := ⟨hm, by simp [freshEeprom]⟩

section
variable {e : Eeprom} (he : eepromOk e)
include he

theorem eepromOk_drain : eepromOk (drain e).2 := by
  unfold drain
  split <;> exact he

/-- An Eeprom of unknown address length has the bytes of the longer one (R328), which the shorter cuts (R334). -/
theorem eepromOk_freeze {c : EepromCommand} {d : Eeprom} (h : freeze e c = some d) : eepromOk d := by
  obtain ⟨size, ready⟩ := he
  unfold freeze at h
  split at h
  · rename_i hu
    rw [hu, if_neg nofun] at size
    cases h
    refine ⟨?_, ready⟩
    dsimp only
    split
    · rw [Image.cut_size, size]; rfl
    · exact size
  · split at h <;> cases h
    exact ⟨size, ready⟩

theorem eepromOk_eepromTick : eepromOk (eepromTick e) := by
  obtain ⟨size, ready⟩ := he
  unfold eepromTick
  split
  · exact ⟨size, ready⟩
  rename_i b hb
  split
  · exact ⟨(completeWrite_size b e).trans size, by simp [completeWrite]⟩
  · exact ⟨size, by simpa [hb] using ready⟩

end

/-! ### The storage device -/

/-- What `StorageOk` says, of a device by itself. -/
def deviceOk (c : Config) (n : Nvs2) : Prop :=
  match n with
  | .unresolved => True
  | .batteryRam m => m.size = 0x8000
  | .eeprom e => eepromOk e
  | .flash f => flashOk c f

theorem storageOk_iff {s : State} : StorageOk s ↔ deviceOk s.cfg s.g2.nvs2 := by
  rw [StorageOk]
  cases s.g2.nvs2 <;> exact Iff.rfl

theorem deviceOk_runCommand (x : EepromCommand) {e : Eeprom} (he : eepromOk e) (c : Config) (s : State) :
    deviceOk c (runCommand x e s).g2.nvs2 := by
  obtain ⟨size, ready⟩ := he
  unfold runCommand
  split
  · exact ⟨size, ready⟩
  split
  · exact ⟨size, ready⟩
  · exact ⟨size, by simp⟩

theorem deviceOk_runStream (l : List Bool) {e : Eeprom} (he : eepromOk e) (c : Config) (s : State) :
    deviceOk c (runStream l e s).g2.nvs2 := by
  unfold runStream
  split
  · exact he
  split
  · exact he
  · exact deviceOk_runCommand _ (eepromOk_freeze he ‹_›) c s

theorem freshBytes_size (v : SaveVariant) (tag : Nat) : (freshBytes v tag).size = variantSize v := by
  cases v <;> rfl

theorem deviceOk_variantOf (c : Config) {v : SaveVariant} {m : Image} (hm : m.size = variantSize v) :
    deviceOk c (variantOf c v m) := by
  cases v with
  | batteryRam => exact hm
  | eeprom6 | eeprom14 => exact eepromOk_freshEeprom hm
  | flash64 => exact flashOk_freshFlash c (.inl hm)
  | flash128 => exact flashOk_freshFlash c (.inr hm)

theorem sizeClass_size {n : Nat} {v : SaveVariant} (h : sizeClass n = some v) : n = variantSize v := by
  unfold sizeClass at h
  repeat' split at h
  all_goals cases h
  all_goals assumption

/-- The file that a variant is made of has the variant's size (48_persistence.md R561, R562). -/
theorem chosenVariant_size {s : State} {n : Nat} {v : SaveVariant} (h : chosenVariant s n = some v) :
    n = variantSize v := by
  unfold chosenVariant at h
  split at h
  · exact sizeClass_size h
  · split at h <;> cases h
    assumption

/-- What `load` leaves of the storage device: nothing new on generation 1, no variant where there is neither
a file nor an override, else a variant with bytes of its size (48_persistence.md R560 to R564). -/
theorem callLoad_device {f : SaveFile} {s t : State} (h : callLoad f s = .next t) :
    t.g2.nvs2 = s.g2.nvs2 ∨ (t.g2.nvs2 = .unresolved ∧ s.cfg.saveOverride = none)
      ∨ ∃ v m, m.size = variantSize v ∧ t.g2.nvs2 = variantOf s.cfg v m := by
  unfold callLoad at h
  split at h
  · cases h
  split at h
  · exact .inl (by rw [load1_frame h])
  refine .inr ?_
  cases f with
  | absent =>
    cases h
    unfold loadNoFile2
    split
    · exact .inl ⟨rfl, ‹_›⟩
    · exact .inr ⟨_, _, freshBytes_size _ _, rfl⟩
  | bytes l =>
    simp only [load2, loadBytes2] at h
    split at h <;> cases h
    exact .inr ⟨_, _, chosenVariant_size ‹_›, rfl⟩
  | unreadable => cases h

/-! ### Every move -/

theorem DeviceMove.deviceOk {s : State} {n : Nvs2} (h : DeviceMove s n) (hs : deviceOk s.cfg s.g2.nvs2) :
    deviceOk s.cfg n := by
  cases h with
  | same => exact hs
  | write o v t h =>
    cases hn : s.g2.nvs2 with
    | unresolved => rw [storageWriteByte, hn] at h; cases h; exact hs
    | batteryRam m =>
      rw [storageWriteByte_batteryRam hn] at h
      rw [hn] at hs
      cases h
      exact (Image.write_size ..).trans hs
    | eeprom e => rw [storageWriteByte_eeprom hn] at h; cases h; exact hs
    | flash f =>
      rw [storageWriteByte_flash hn] at h
      rw [hn] at hs
      obtain ⟨g, hg, ht⟩ := bindR_eq_next.1 h
      cases ht
      exact flashOk_flashWrite hs hg
  | sniffStorage o v =>
    unfold Machine.sniffStorage
    split
    · refine flashOk_freshFlash _ ?_
      rw [Image.filled_size]
      split <;> simp
    · rfl
  | sniffEeprom => exact eepromOk_freshEeprom rfl
  | drain e h => rw [h] at hs; exact eepromOk_drain hs
  | appendBit b =>
    unfold Machine.appendBit
    split
    · rename_i e hn; rw [hn] at hs; exact hs
    · exact hs
  | endStream =>
    unfold Machine.endStream
    split
    · rename_i e hn; rw [hn] at hs; exact deviceOk_runStream _ (e := { e with pending := [] }) hs _ _
    · exact hs
  | tick =>
    cases hn : s.g2.nvs2 with
    | unresolved => trivial
    | batteryRam m => rwa [hn] at hs
    | eeprom e => rw [hn] at hs; exact eepromOk_eepromTick hs
    | flash f => rw [hn] at hs; exact flashOk_flashTick hs
  | load f t h =>
    obtain ht | ⟨ht, -⟩ | ⟨v, m, hm, ht⟩ := callLoad_device h
    · rwa [ht]
    · rw [ht]; trivial
    · rw [ht]; exact deviceOk_variantOf _ hm

theorem Move.storageOk {s t : State} (h : Move s t) (hs : StorageOk s) : StorageOk t := by
  rw [storageOk_iff] at hs ⊢
  rw [h.cfg]
  exact h.device.deviceOk hs

theorem variantOf_resolved (c : Config) (v : SaveVariant) (m : Image) : variantOf c v m ≠ .unresolved := by
  cases v <;> nofun

/-- With an override no move takes the variant away: the others keep it, and `load` makes the override's. -/
theorem DeviceMove.resolved {s : State} {n : Nvs2} (h : DeviceMove s n) (ho : s.cfg.saveOverride ≠ none)
    (hu : s.g2.nvs2 ≠ .unresolved) : n ≠ .unresolved := by
  cases h with
  | same => exact hu
  | write o v t h => exact resolved_of_sameVariant (storageWriteByte_sameVariant hu h)
  | sniffStorage o v =>
    unfold Machine.sniffStorage
    split <;> nofun
  | sniffEeprom => nofun
  | drain e h => nofun
  | appendBit b => exact resolved_of_sameVariant (appendBit_sameVariant b hu)
  | endStream => exact resolved_of_sameVariant (endStream_sameVariant hu)
  | tick => exact resolved_of_sameVariant (nvs2Tick_sameVariant hu)
  | load f t h =>
    obtain ht | ⟨-, hnone⟩ | ⟨v, m, -, ht⟩ := callLoad_device h
    · rwa [ht]
    · exact absurd hnone ho
    · rw [ht]; exact variantOf_resolved _ v m

theorem Move.overrideOk {s t : State} (h : Move s t) (hs : OverrideOk s) : OverrideOk t := by
  rw [OverrideOk, h.cfg]
  exact fun ho => h.device.resolved ho (hs ho)

/-- Settles O10: every move leaves a device as its rules say, and with an override a resolved one. -/
theorem stepKeepsStorageVariant : Obligations.StepKeepsStorageVariant := fun _ _ h =>
  ⟨step_keeps (fun _ _ => Move.storageOk) (fun _ _ _ _ hs => hs) (fun _ hs => hs) h,
    step_keeps (fun _ _ => Move.overrideOk) (fun _ _ _ _ hs => hs) (fun _ hs => hs) h⟩

end Sys2Proof.Machine
end

section
/-! PROOFS. The command machine of the flash (44_storage_flash.md R373 to R377, R382, R387): what its state
makes of the byte that each row writes. -/
namespace Sys2Proof.Machine

open Sys2Proof.Safety Sys2Proof.Claims

/-! ### The write of a byte, by the state (R373) -/

theorem flashWrite_busy {f : Flash} (h : f.busy.isSome = true) (t : Timing) (o : Half) (v : Byte) :
    flashWrite t o v f = .next f := if_pos h

section
variable {f : Flash} (hb : f.busy = none) (t : Timing) (o : Half) (v : Byte)
include hb

theorem flashWrite_notStarted (h : f.state = .notStarted) :
    flashWrite t o v f = .next (flashNotStarted o v f) := by
  rw [flashWrite, if_neg (by simp [hb]), h]

theorem flashWrite_starting (h : f.state = .starting) : flashWrite t o v f = .next (flashStarting o v f) := by
  rw [flashWrite, if_neg (by simp [hb]), h]

theorem flashWrite_ready (h : f.state = .ready) : flashWrite t o v f = .next (flashReady t o v f) := by
  rw [flashWrite, if_neg (by simp [hb]), h]

theorem flashWrite_command (h : f.state = .command) : flashWrite t o v f = flashCommand t o v f := by
  rw [flashWrite, if_neg (by simp [hb]), h]

end

/-! ### The commands (R374 to R377) -/

/-- The sector that an offset names (R376). -/
theorem sectorOf_eq (f : Flash) (o : Half) : sectorOf f o = f.bank.toNat * 0x10000 + o.toNat / 0x1000 * 0x1000 := by
  have h : o &&& (0xF000 : Half) = o >>> 12 <<< 12 := by
    apply BitVec.eq_of_getLsbD_eq
    intro i hi
    have hm : (0xF000 : Half).getLsbD i = decide (12 ≤ i) := by revert i; decide
    rw [BitVec.getLsbD_and, hm]
    by_cases hn : 12 ≤ i <;> simp [hn, hi, Nat.lt_of_not_le]
  rw [sectorOf, h, BitVec.toNat_shiftLeft, BitVec.toNat_ushiftRight, Nat.shiftLeft_eq, Nat.shiftRight_eq_div_pow]
  have := o.isLt
  omega

section
variable {f : Flash} (t : Timing)

theorem flashReady_eraseChip (h : f.last = .erase) :
    flashReady t 0x5555 0x10 f = command .eraseChip (inFlight t.flashEraseChip .eraseChip f) := by
  simp [flashReady, h]

theorem flashReady_eraseSector (o : Half) (h : f.last = .erase) :
    flashReady t o 0x30 f
      = command .eraseSector (inFlight t.flashEraseSector (.eraseSector (sectorOf f o)) f) := by
  simp [flashReady, h]

theorem flashReady_bank (h : f.bytes.size = 0x20000) :
    flashReady t 0x5555 0xB0 f = commandOpen .bankSwitch f := by
  simp [flashReady, h]

end

/-- A byte that the state does not take (R387). -/
theorem flashWrite_unrecognized {c : Config} {f : Flash} (hf : flashOk c f) (hb : f.busy = none) {o : Half} {v : Byte}
    (h : ¬ Recognized f o v) (t : Timing) : flashWrite t o v f = .next (unrecognized f) := by
  cases hs : f.state with
  | notStarted =>
    simp only [Recognized, hs] at h
    rw [flashWrite_notStarted hb t o v hs, flashNotStarted, if_neg h]
  | starting =>
    simp only [Recognized, hs] at h
    rw [flashWrite_starting hb t o v hs, flashStarting, if_neg h]
  | ready =>
    simp only [Recognized, hs] at h
    rw [flashWrite_ready hb t o v hs]
    grind [flashReady]
  | command =>
    simp only [Recognized, hs, not_or] at h
    obtain ⟨hp, ho⟩ := h
    obtain ⟨-, -, -, hc, -⟩ := hf
    rw [flashWrite_command hb t o v hs, flashCommand, if_neg hp, if_pos ((hc hs).resolve_left hp), if_neg ho]

/-! ### The rows -/

theorem flashByteWrite_flash {s : State} {f : Flash} (h : Open2 s) (hn : s.g2.nvs2 = .flash f) {o : Half} {v : Byte}
    {g : Flash} (hg : flashWrite s.cfg.timing o v f = .next g) :
    flashByteWrite o v s = .next (withVariant s (.flash g)) := by
  rw [flashByteWrite_eq h, resolvedFor_resolved (by rw [hn]; nofun), storageWriteByte_flash hn, hg, bindR_next]

/-- Settles O55: each row is the write of its byte, which the flash takes by its state. -/
theorem flashCommands : Obligations.FlashCommands := by
  intro s f o v h hok hn t becomes
  have hf : flashOk s.cfg f := by rwa [StorageOk, hn] at hok
  have write {o : Half} {v : Byte} {g : Flash} (hg : flashWrite t o v f = .next g) :
      flashByteWrite o v s = .next (withVariant s (.flash g)) := flashByteWrite_flash h hn hg
  refine ⟨fun p hp => ?_, fun hb i hi => ?_, fun hb =>
    ⟨fun hs => write ?_, fun hs => write ?_, fun hs => ?_, fun hs hl => write ?_, fun hs hl => write ?_,
      fun hr => write (flashWrite_unrecognized hf hb hr t)⟩⟩
  · simp only [List.mem_cons, List.not_mem_nil, or_false] at hp
    obtain rfl | rfl | rfl | rfl | rfl | rfl | rfl | rfl | rfl | rfl | rfl := hp <;> rfl
  · have ignored (o : Half) (v : Byte) : flashByteWrite o v s = .next s :=
      (write (flashWrite_busy hb t o v)).trans (congrArg _ (setNvs2_same hn))
    simp only [List.mem_cons, List.not_mem_nil, or_false] at hi
    obtain rfl | rfl | rfl | rfl | rfl | rfl | rfl | rfl | rfl | rfl | rfl | rfl := hi <;> exact ignored _ _
  · rw [flashWrite_notStarted hb _ _ _ hs]; rfl
  · rw [flashWrite_starting hb _ _ _ hs]; rfl
  · have ready {o : Half} {v : Byte} {g : Flash} (hg : flashReady t o v f = g) :
        flashByteWrite o v s = .next (withVariant s (.flash g)) :=
      write (hg ▸ flashWrite_ready hb t o v hs)
    refine ⟨ready rfl, ready rfl, ready rfl, fun hl => ready (flashReady_eraseChip t hl), fun hl => ready ?_,
      ready rfl, fun hd => ready (flashReady_bank t hd)⟩
    rw [flashReady_eraseSector t o hl, sectorOf_eq]
    rfl
  · rw [flashWrite_command hb _ _ _ hs, flashCommand, if_pos hl]; rfl
  · rw [flashWrite_command hb _ _ _ hs, flashCommand, if_neg (by rw [hl]; nofun), if_pos hl, if_pos rfl]

end Sys2Proof.Machine
end

section
/-! PROOFS. The clock of Family C (45_rtc.md): what its registers read and what a write of each sets. -/
namespace Sys2Proof.Machine

open Sys2Proof.Claims

/-! ### The register that the RAM window shows (R413) -/

theorem mapRam_of_rtcSelected {s : State} {sel : Byte} {a : Half} (h8 : 0x08 ≤ sel) (hC : sel ≤ 0x0C)
    (h : RtcSelected s sel) : mapRam s.cfg.cart s.g1.bank a = .rtc sel := by
  obtain ⟨hf, hr, he, hb⟩ := h
  rw [mapRam, hf]
  dsimp only
  rw [mapRamC, hb, if_neg (by rw [he]; nofun), if_neg (by bv_omega), if_pos hC, if_pos hr]

theorem rtcSel_cases {sel : Byte} (h8 : 0x08 ≤ sel) (hC : sel ≤ 0x0C) :
    sel = 0x08 ∨ sel = 0x09 ∨ sel = 0x0A ∨ sel = 0x0B ∨ sel = 0x0C := by bv_omega

/-! ### Reads (R417) -/

theorem ofNat_mod_256 (d : Nat) : BitVec.ofNat 8 (d % 256) = BitVec.ofNat 8 d :=
  BitVec.eq_of_toNat_eq (by simp)

theorem dhByte_eq (d : Nat) (halted carry : Bool) :
    dhByte d halted carry
      = BitVec.ofNat 8 (d / 256 % 2 + (if halted then 0x40 else 0) + (if carry then 0x80 else 0)) := by
  have hd : d.testBit 8 = decide (d / 256 % 2 = 1) := Nat.testBit_eq_decide_div_mod_eq
  rw [dhByte, hd]
  obtain h | h : d / 256 % 2 = 0 ∨ d / 256 % 2 = 1 := by omega
  all_goals rw [h]; cases halted <;> cases carry <;> rfl

theorem rtcReadReg_eq (s : State) {sel : Byte} (h8 : 0x08 ≤ sel) (hC : sel ≤ 0x0C) :
    rtcReadReg s.g1.rtc sel = clockByte s sel := by
  obtain rfl | rfl | rfl | rfl | rfl := rtcSel_cases h8 hC
  case inr.inr.inr.inl => exact (ofNat_mod_256 _).symm
  case inr.inr.inr.inr => exact dhByte_eq _ _ _
  all_goals rfl

/-- Settles O37: every row is the read of its address, at which the window shows the register. -/
theorem clockRegisterReads : Obligations.ClockRegisterReads := by
  intro s a h i hi sel h8 hC hsel
  have hrow : exec i s = cpuRead8 (gbAddr (5#3 ++ a)) s := by
    simp only [List.mem_cons, List.not_mem_nil, or_false] at hi
    rcases hi with rfl | rfl | rfl | rfl | rfl <;> rfl
  rw [hrow, cpuRead8_ram h, readRam, mapRam_of_rtcSelected h8 hC hsel]
  dsimp only
  rw [rtcReadReg_eq s h8 hC]

/-! ### A unit of time set (R412, R418) -/

section
variable {e m c m' c' : Int}

/-- Whole cycles of a unit do not change it. -/
theorem unit_add_of_dvd {d : Int} (hm : m ≠ 0) (h : m * c ∣ d) : unit (e + d) m c = unit e m c := by
  obtain ⟨n, rfl⟩ := h
  rw [mul_assoc, unit, Int.add_mul_ediv_left _ _ hm, Int.add_mul_emod_self_left, unit]

section
variable {new : Int}

/-- A unit set: the cycles of the unit stay, and within its cycle it counts `new`. -/
theorem ediv_set (hm : m ≠ 0) : (e + (new - unit e m c) * m) / m = new + c * (e / m / c) := by
  rw [Int.add_mul_ediv_right _ _ hm, unit]
  linarith [Int.emod_add_mul_ediv (e / m) c]

variable (h0 : 0 ≤ new) (hc : new < c)
include h0 hc

theorem unit_set (hm : m ≠ 0) : unit (e + (new - unit e m c) * m) m c = new := by
  rw [unit, ediv_set hm, Int.add_mul_emod_self_left, Int.emod_eq_of_lt h0 hc]

theorem unit_set_coarser (hm : 0 < m) (h : m * c ∣ m') :
    unit (e + (new - unit e m c) * m) m' c' = unit e m' c' := by
  obtain ⟨n, rfl⟩ := h
  have hpos : 0 < c := by omega
  have hcycle : (e + (new - unit e m c) * m) / m / c = e / m / c := by
    rw [ediv_set hm.ne', Int.add_mul_ediv_left _ _ hpos.ne', Int.ediv_eq_zero_of_lt h0 hc, zero_add]
  have nested (x : Int) : x / (m * c * n) = x / m / c / n := by
    rw [← Int.ediv_ediv_of_nonneg (by positivity), ← Int.ediv_ediv_of_nonneg hm.le]
  simp only [unit] at hcycle ⊢
  rw [nested, nested, hcycle]

end

theorem unit_set_finer {x : Int} (hm : m' ≠ 0) (h : m' * c' ∣ m) : unit (e + x * m) m' c' = unit e m' c' :=
  unit_add_of_dvd hm (h.mul_left x)

end

/-! ### The clock with a unit set (R415, R418) -/

/-- The clock of `s` normalised, its unit of modulus `m` and count `c` set to `new`, with the snapshot `l`. -/
def clockWith (s : State) (m c new : Int) (l : Latched) : Rtc :=
  { s.g1.rtc with
    carry := s.g1.rtc.carry || decide (512 ≤ elapsedOf s / 86400),
    reference := normalizedReference s - (new - unit (elapsedOf s) m c) * m,
    latched := l }

/-- `Elapsed()` of the clock of `s` once it is normalised. -/
def normalElapsed (s : State) : Int := elapsed (rtcNormalize (nowOf s) s.g1.rtc) (nowOf s)

/-- The unit of modulus `m` and count `c` ends its cycle with the 512 days (R412). -/
def IsClockUnit (m c : Int) : Prop := 0 < m ∧ m * c ∣ 86400 * 512

theorem unit_normalElapsed (s : State) {m c : Int} (h : IsClockUnit m c) :
    unit (normalElapsed s) m c = unit (elapsedOf s) m c :=
  unitOf_rtcNormalize _ _ h.1.ne' h.2

theorem elapsed_clockWith (s : State) {m c : Int} (h : IsClockUnit m c) (new : Int) (l : Latched) :
    elapsed (clockWith s m c new l) (nowOf s)
      = normalElapsed s + (new - unit (normalElapsed s) m c) * m := by
  rw [unit_normalElapsed s h, normalElapsed, rtcNormalize_eq]
  exact (sub_add _ _ _).symm

section
variable (s : State) {m c m' c' : Int} (h : IsClockUnit m c) {new : Int} (l : Latched)
include h

theorem unit_clockWith_finer (h' : IsClockUnit m' c') (hd : m' * c' ∣ m) :
    unit (elapsed (clockWith s m c new l) (nowOf s)) m' c' = unit (elapsedOf s) m' c' := by
  rw [elapsed_clockWith s h, unit_set_finer h'.1.ne' hd, unit_normalElapsed s h']

variable (h0 : 0 ≤ new) (hc : new < c)
include h0 hc

theorem unit_clockWith_self : unit (elapsed (clockWith s m c new l) (nowOf s)) m c = new := by
  rw [elapsed_clockWith s h, unit_set h0 hc h.1.ne']

theorem unit_clockWith_coarser (h' : IsClockUnit m' c') (hd : m * c ∣ m') :
    unit (elapsed (clockWith s m c new l) (nowOf s)) m' c' = unit (elapsedOf s) m' c' := by
  rw [elapsed_clockWith s h, unit_set_coarser h0 hc h.1 hd, unit_normalElapsed s h']

end

theorem isClockUnit_seconds : IsClockUnit 1 60 := ⟨by decide, by decide⟩
theorem isClockUnit_minutes : IsClockUnit 60 60 := ⟨by decide, by decide⟩
theorem isClockUnit_hours : IsClockUnit 3600 24 := ⟨by decide, by decide⟩
theorem isClockUnit_days : IsClockUnit 86400 512 := ⟨by decide, by decide⟩

/-! ### The writes, in the words of the statements (R418, R419) -/

section
variable (s : State) (v : Byte)

theorem rtcStore_seconds : rtcStore (nowOf s) 0x08 v s.g1.rtc
    = clockWith s 1 60 v.toNat { s.g1.rtc.latched with s := v.toNat } := by
  rw [rtcStore, if_pos rfl, rtcWriteSeconds, rtcSeconds, unitOf_rtcNormalize _ _ (by decide) (by decide),
    rtcNormalize_eq]
  rfl

theorem rtcStore_minutes : rtcStore (nowOf s) 0x09 v s.g1.rtc
    = clockWith s 60 60 v.toNat { s.g1.rtc.latched with m := v.toNat } := by
  rw [rtcStore, if_neg (by decide), if_pos rfl, rtcWriteMinutes, rtcMinutes,
    unitOf_rtcNormalize _ _ (by decide) (by decide), rtcNormalize_eq]
  rfl

theorem rtcStore_hours : rtcStore (nowOf s) 0x0A v s.g1.rtc
    = clockWith s 3600 24 v.toNat { s.g1.rtc.latched with h := v.toNat } := by
  rw [rtcStore, if_neg (by decide), if_neg (by decide), if_pos rfl, rtcWriteHours, rtcHours,
    unitOf_rtcNormalize _ _ (by decide) (by decide), rtcNormalize_eq]
  rfl

/-- The day count of an elapsed time with its bits 7 to 0 replaced (R418). -/
def withDayLow (e : Int) : Int := unit e 86400 512 / 256 * 256 + v.toNat

/-- The day count of an elapsed time with its bit 8 replaced (R419). -/
def withDayHigh (e : Int) : Int := (if v.getLsbD 0 then 256 else 0) + unit e 86400 512 % 256

theorem days_range (e : Int) : 0 ≤ unit e 86400 512 ∧ unit e 86400 512 < 512 :=
  ⟨Int.emod_nonneg _ (by decide), Int.emod_lt_of_pos _ (by decide)⟩

theorem withDayLow_range (e : Int) : 0 ≤ withDayLow v e ∧ withDayLow v e < 512 := by
  have h := days_range e
  have hv := v.isLt
  unfold withDayLow
  omega

theorem withDayHigh_range (e : Int) : 0 ≤ withDayHigh v e ∧ withDayHigh v e < 512 := by
  have h := days_range e
  unfold withDayHigh
  split <;> omega

theorem dayLow_unitOf (e : Int) : (dayLow (unitOf e 86400 512).toNat v : Int) = withDayLow v e := by
  change (dayLow (unit e 86400 512).toNat v : Int) = _
  have h := days_range e
  unfold dayLow withDayLow
  omega

theorem dayHigh_unitOf (e : Int) : (dayHigh (unitOf e 86400 512).toNat v : Int) = withDayHigh v e := by
  change (dayHigh (unit e 86400 512).toNat v : Int) = _
  have h := days_range e
  unfold dayHigh withDayHigh
  split <;> omega

theorem rtcStore_dayLow : rtcStore (nowOf s) 0x0B v s.g1.rtc
    = clockWith s 86400 512 (withDayLow v (elapsedOf s))
        { s.g1.rtc.latched with d := dayLow s.g1.rtc.latched.d v } := by
  rw [rtcStore, if_neg (by decide), if_neg (by decide), if_neg (by decide), if_pos rfl, rtcWriteDayLow, rtcDays,
    unitOf_rtcNormalize _ _ (by decide) (by decide), dayLow_unitOf, rtcNormalize_eq]
  rfl

theorem rtcSetHalt_eq (now : Int) (halt : Bool) (r : Rtc) : rtcSetHalt now halt r = { r with
    halted := halt,
    haltedInstant := if halt = true ∧ r.halted = false then now else r.haltedInstant,
    reference := r.reference
      + if halt = false ∧ r.halted = true then now - r.haltedInstant else 0 } := by
  obtain ⟨ref, hi, halted, carry, l⟩ := r
  cases halt <;> cases halted <;> simp [rtcSetHalt]

/-- A halt loses no time, and a clock that is let run runs on from the time it showed (R420, R421). -/
theorem elapsed_rtcSetHalt (start now : Int) (halt carry : Bool) (r : Rtc) :
    elapsed { rtcSetHalt start halt r with carry := carry } now - (if halt then 0 else now - start)
      = elapsed r start := by
  rw [rtcSetHalt_eq]
  unfold elapsed
  cases halt <;> cases r.halted <;> simp only [Bool.false_eq_true, reduceCtorEq, and_self, and_true, and_false,
    if_true, if_false]
  all_goals ring

theorem rtcStore_flags : rtcStore (nowOf s) 0x0C v s.g1.rtc
    = { rtcSetHalt (nowOf s) (v.getLsbD 6)
          (clockWith s 86400 512 (withDayHigh v (elapsedOf s))
            { s.g1.rtc.latched with d := dayHigh s.g1.rtc.latched.d v }) with
        carry := v.getLsbD 7 } := by
  rw [rtcStore, if_neg (by decide), if_neg (by decide), if_neg (by decide), if_neg (by decide), if_pos rfl,
    rtcWriteFlags, rtcWriteDayHigh, rtcDays, unitOf_rtcNormalize _ _ (by decide) (by decide), dayHigh_unitOf,
    rtcNormalize_eq]
  rfl

end

section
variable {s : State} {a : BitVec 13} {v sel : Byte} (h : Open1 s (5#3 ++ a)) (h8 : 0x08 ≤ sel) (hC : sel ≤ 0x0C)
  (hsel : RtcSelected s sel)
include h h8 hC hsel

theorem cpuWrite8_rtc : cpuWrite8 (gbAddr (5#3 ++ a)) v s = rtcWriteReg sel v s := by
  rw [cpuWrite8_ram h, writeRam, mapRam_of_rtcSelected h8 hC hsel]

theorem cpuWrite8_rtc_stored {r : Rtc} (hv : rtcInRange sel v = true)
    (hr : rtcStore (nowOf s) sel v s.g1.rtc = r) :
    cpuWrite8 (gbAddr (5#3 ++ a)) v s = .next (with1 s { s.g1 with rtc := r }) := by
  rw [cpuWrite8_rtc h h8 hC hsel, rtcWriteReg, if_pos hv, hr]
  rfl

theorem cpuWrite8_rtc_refused (hv : rtcInRange sel v = false) :
    cpuWrite8 (gbAddr (5#3 ++ a)) v s = .refused .rtcRange := by
  rw [cpuWrite8_rtc h h8 hC hsel, rtcWriteReg, if_neg (by rw [hv]; nofun)]

end

/-- Settles O38: the write sets one unit of the normalised clock, whose finer units stay as they are and whose
coarser units see no cycle of it end. -/
theorem clockUnitWrites : Obligations.ClockUnitWrites := by
  intro s a v h e l units
  have hv0 : (0 : Int) ≤ v.toNat := Int.natCast_nonneg _
  have below {n : Nat} (hv : v.toNat < n) : (v.toNat : Int) < n := Int.ofNat_lt.2 hv
  refine ⟨fun hsel => ⟨fun hv => ?_, fun hv => ?_⟩, fun hsel => ⟨fun hv => ?_, fun hv => ?_⟩,
    fun hsel => ⟨fun hv => ?_, fun hv => ?_⟩, fun hsel => ?_⟩
  · exact ⟨_, cpuWrite8_rtc_stored h (by decide) (by decide) hsel (decide_eq_true hv) (rtcStore_seconds s v),
      unit_clockWith_self s isClockUnit_seconds _ hv0 (below hv),
      unit_clockWith_coarser s isClockUnit_seconds _ hv0 (below hv) isClockUnit_minutes (by decide),
      unit_clockWith_coarser s isClockUnit_seconds _ hv0 (below hv) isClockUnit_hours (by decide),
      unit_clockWith_coarser s isClockUnit_seconds _ hv0 (below hv) isClockUnit_days (by decide),
      congrArg (normalizedReference s - ·) (mul_one _), rfl, rfl, rfl, rfl⟩
  · exact cpuWrite8_rtc_refused h (by decide) (by decide) hsel (decide_eq_false (Nat.not_lt.2 hv))
  · exact ⟨_, cpuWrite8_rtc_stored h (by decide) (by decide) hsel (decide_eq_true hv) (rtcStore_minutes s v),
      unit_clockWith_finer s isClockUnit_minutes _ isClockUnit_seconds (by decide),
      unit_clockWith_self s isClockUnit_minutes _ hv0 (below hv),
      unit_clockWith_coarser s isClockUnit_minutes _ hv0 (below hv) isClockUnit_hours (by decide),
      unit_clockWith_coarser s isClockUnit_minutes _ hv0 (below hv) isClockUnit_days (by decide),
      rfl, rfl, rfl, rfl, rfl⟩
  · exact cpuWrite8_rtc_refused h (by decide) (by decide) hsel (decide_eq_false (Nat.not_lt.2 hv))
  · exact ⟨_, cpuWrite8_rtc_stored h (by decide) (by decide) hsel (decide_eq_true hv) (rtcStore_hours s v),
      unit_clockWith_finer s isClockUnit_hours _ isClockUnit_seconds (by decide),
      unit_clockWith_finer s isClockUnit_hours _ isClockUnit_minutes (by decide),
      unit_clockWith_self s isClockUnit_hours _ hv0 (below hv),
      unit_clockWith_coarser s isClockUnit_hours _ hv0 (below hv) isClockUnit_days (by decide),
      rfl, rfl, rfl, rfl, rfl⟩
  · exact cpuWrite8_rtc_refused h (by decide) (by decide) hsel (decide_eq_false (Nat.not_lt.2 hv))
  · obtain ⟨hd0, hd⟩ := withDayLow_range v (elapsedOf s)
    exact ⟨_, cpuWrite8_rtc_stored h (by decide) (by decide) hsel rfl (rtcStore_dayLow s v),
      unit_clockWith_finer s isClockUnit_days _ isClockUnit_seconds (by decide),
      unit_clockWith_finer s isClockUnit_days _ isClockUnit_minutes (by decide),
      unit_clockWith_finer s isClockUnit_days _ isClockUnit_hours (by decide),
      unit_clockWith_self s isClockUnit_days _ hd0 hd,
      rfl, rfl, rfl, rfl, rfl⟩

/-- Settles O39: day bit 8 is set as a unit is, and the halt keeps the time shown, from which a running clock
runs on. -/
theorem clockFlagsWrite : Obligations.ClockFlagsWrite := by
  intro s a v h hsel e
  let l := { s.g1.rtc.latched with d := dayHigh s.g1.rtc.latched.d v }
  obtain ⟨hd0, hd⟩ := withDayHigh_range v e
  have hset := rtcSetHalt_eq (nowOf s) (v.getLsbD 6) (clockWith s 86400 512 (withDayHigh v e) l)
  refine ⟨_, cpuWrite8_rtc_stored h (by decide) (by decide) hsel rfl (rtcStore_flags s v),
    by rw [hset], rfl, by rw [hset]; rfl, by rw [hset]; rfl, by rw [hset]; rfl, ?_⟩
  intro now _ e' on
  have he : e' - on = elapsed (clockWith s 86400 512 (withDayHigh v e) l) (nowOf s) :=
    elapsed_rtcSetHalt (nowOf s) now (v.getLsbD 6) (v.getLsbD 7) _
  rw [he]
  exact ⟨unit_clockWith_finer s isClockUnit_days l isClockUnit_seconds (by decide),
    unit_clockWith_finer s isClockUnit_days l isClockUnit_minutes (by decide),
    unit_clockWith_finer s isClockUnit_days l isClockUnit_hours (by decide),
    unit_clockWith_self s isClockUnit_days l hd0 hd⟩

end Sys2Proof.Machine
end

section
/-! PROOFS. Which moves change the clock and the bank state: `tick` makes none of them (45_rtc.md R411, 41_bus.md
R227), and each of them keeps the clock as R410 and R414 say. -/
namespace Sys2Proof.Machine

open Sys2Proof.Safety Sys2Proof.Claims

/-! ### What a move does to the clock and the bank state -/

/-- The wall clock, the real-time clock, the bank registers and the rumble output. -/
def clockAndBank (s : State) : Int × Rtc × BankState × Bool :=
  (s.host.now, s.g1.rtc, s.g1.bank, s.g1.rumble)

theorem clockAndBank_eq_iff {s t : State} : clockAndBank t = clockAndBank s ↔
    t.host.now = s.host.now ∧ t.g1.rtc = s.g1.rtc ∧ t.g1.bank = s.g1.bank ∧ t.g1.rumble = s.g1.rumble := by
  simp only [clockAndBank, Prod.mk.injEq]

/-- The moves of generation 1 on the clock or the bank state: a control write, a write of a clock register,
`Normalize()` and `load`. -/
inductive ClockMove (s : State) : State → Prop
  | control (a : Half) (v : Byte) : ClockMove s (writeControl a v s)
  | store (sel v : Byte) (h : rtcInRange sel v = true) : ClockMove s (setRtc (rtcStore (nowOf s) sel v s.g1.rtc) s)
  | normalize : ClockMove s (normalizedFor s)
  | load (f : SaveFile) (t : State) (h : load1 f s = .next t) : ClockMove s t

theorem callLoad_clock {f : SaveFile} {s t : State} (h : callLoad f s = .next t) :
    clockAndBank t = clockAndBank s ∨ s.cfg.gen = .gen1 ∧ ClockMove s t := by
  unfold callLoad at h
  split at h
  · cases h
  split at h
  · rename_i g; exact .inr ⟨g, .load f t h⟩
  · exact .inl (by rw [load2_frame h]; rfl)

theorem Move.clock_cases {s t : State} (h : Move s t) :
    clockAndBank t = clockAndBank s ∨ s.cfg.gen = .gen1 ∧ ClockMove s t := by
  cases h with
  | control a v _ g => exact .inr ⟨g, .control a v⟩
  | rtc sel v _ g h => exact .inr ⟨g, .store sel v h⟩
  | normalize _ g => exact .inr ⟨g, .normalize⟩
  | load f _ _ h => exact callLoad_clock h
  | nvs1 o v _ _ => exact .inl (by rw [writeNvs1_frame]; rfl)
  | dmaReg v _ _ => exact .inl (by rw [writeDma_frame]; rfl)
  | vbk v _ _ => exact .inl (by rw [writeVbk_frame]; rfl)
  | boot v _ _ => exact .inl (by unfold writeBoot; split <;> rfl)
  | svbk v _ _ => exact .inl (by rw [writeSvbk_frame]; rfl)
  | vdmaReg a v _ _ _ h => exact .inl (by rw [writeVdmaReg_frame h]; rfl)
  | hblank _ _ => exact .inl (by rw [vdmaHBlank_frame]; rfl)
  | oamUnit b _ _ _ => exact .inl (by rw [oamNext_frame]; rfl)
  | pal a w v _ _ => exact .inl (by rw [writePal_frame]; rfl)
  | vram2 a w v _ _ => exact .inl (by rw [writeVram2_frame]; rfl)
  | oam2 a w v _ _ => exact .inl (by rw [writeOam2_frame]; rfl)
  | storage o v _ _ _ h => exact .inl (by rw [storageWriteByte_frame h]; rfl)
  | sniffStorage o v _ _ _ => exact .inl (by rw [sniffStorage_frame]; rfl)
  | appendBit b _ _ => exact .inl (by rw [appendBit_frame]; rfl)
  | endStream _ _ => exact .inl (by rw [endStream_frame]; rfl)
  | unitEnd k c₀ _ _ => exact .inl (by rw [clockAndBank, afterUnit_g1, afterUnit_host]; rfl)
  | rearm k _ _ => exact .inl (by unfold Machine.rearm; split <;> rfl)
  | _ => exact .inl rfl

/-! ### `tick` (R411, R227) -/

theorem Moves.clockAndBank_gen2 {s t : State} (h : Moves s t) (g : s.cfg.gen = .gen2) :
    clockAndBank t = clockAndBank s := by
  induction h with
  | refl => rfl
  | tail hu hm ih =>
    obtain hsame | ⟨g1, -⟩ := hm.clock_cases
    · rw [hsame, ih]
    · rw [Moves.cfg hu, g] at g1
      cases g1

theorem read1_clockAndBank (m : Master) (a : Half) (s : State) :
    clockAndBank (read1 m a s).2 = clockAndBank s := by
  obtain ⟨hg, -, hh, -⟩ := read1_keeps_dma m a s
  rw [clockAndBank_eq_iff, hg, hh]
  exact ⟨rfl, rfl, rfl, rfl⟩

theorem oamStore_clockAndBank (b : Byte) (s : State) : clockAndBank (oamStore b s) = clockAndBank s := rfl

theorem oamNext_clockAndBank (s : State) : clockAndBank (oamNext s) = clockAndBank s := by
  rw [oamNext_frame]
  rfl

theorem oamUnit_clockAndBank (s : State) : clockAndBank (oamUnit s) = clockAndBank s := by
  rw [oamUnit, oamNext_clockAndBank, oamStore_clockAndBank, read1_clockAndBank]

theorem oamTick1_clockAndBank (s : State) : clockAndBank (oamTick1 s) = clockAndBank s := by
  unfold oamTick1
  split
  · rfl
  · split <;> rfl
  · split
    · exact oamUnit_clockAndBank (oamCount s)
    · rfl

theorem setVdma_clockAndBank (d : Vdma) (s : State) : clockAndBank (setVdma d s) = clockAndBank s := rfl

theorem vdmaByte_clockAndBank (s : State) : clockAndBank (vdmaByte s) = clockAndBank s := by
  change clockAndBank (vdmaSrcRead s.g1.vdma.src s).2 = _
  unfold vdmaSrcRead
  split
  · rfl
  · exact read1_clockAndBank _ _ s

theorem vdmaBytes_clockAndBank (n : Nat) (s : State) : clockAndBank (vdmaBytes n s) = clockAndBank s := by
  induction n generalizing s with
  | zero => rfl
  | succ n ih => rw [vdmaBytes, ih, vdmaByte_clockAndBank]

theorem vdmaBlock_clockAndBank (s : State) : clockAndBank (vdmaBlock s) = clockAndBank s := by
  rw [vdmaBlock, setVdma_clockAndBank, vdmaBytes_clockAndBank]

theorem vdmaTick1_clockAndBank (s : State) : clockAndBank (vdmaTick1 s) = clockAndBank s := by
  unfold vdmaTick1
  split
  · split
    · exact vdmaBlock_clockAndBank (vdmaCount s)
    · rfl
  · rfl

theorem gen1Tick1_clockAndBank (s : State) : clockAndBank (gen1Tick1 s) = clockAndBank s := by
  unfold gen1Tick1
  split
  · rw [vdmaTick1_clockAndBank, oamTick1_clockAndBank]
  · exact oamTick1_clockAndBank s

theorem tick1_clockAndBank {s t : State} (h : tick1 s = .next t) : clockAndBank t = clockAndBank s := by
  cases g : s.cfg.gen with
  | gen1 =>
    obtain ⟨u, hu, ht⟩ := bindR_eq_next.1 h
    rw [enginesTick1, g] at hu
    cases hu
    have g' : (gen1Tick1 s).cfg.gen = .gen1 := by rw [(gen1Tick1_moves s g).cfg, g]
    rw [completionTick1, g'] at ht
    cases ht
    exact gen1Tick1_clockAndBank s
  | gen2 => exact (tick1_moves h).clockAndBank_gen2 g

theorem ticks_clockAndBank {n : Nat} {s t : State} (h : ticks n s = .next t) :
    clockAndBank t = clockAndBank s := by
  induction n generalizing s with
  | zero => cases h; rfl
  | succ n ih =>
    obtain ⟨u, hu, ht⟩ := bindR_eq_next.1 h
    rw [ih ht, tick1_clockAndBank hu]

/-- Settles O17: a cycle of generation 1 runs only the DMA engines, and no move of generation 2 changes the
clock or the bank state. -/
theorem tickLeavesClockAndBank : Obligations.TickLeavesClockAndBank := by
  intro c s t h
  change callTick c s = .next t at h
  unfold callTick at h
  split at h
  · cases h
  · exact (clockAndBank_eq_iff.1 (ticks_clockAndBank h)).2

/-! ### A clock in order (R410, R414) -/

/-- Each latched unit is below its count (R410). -/
def LatchedOk (l : Latched) : Prop := l.s < 60 ∧ l.m < 60 ∧ l.h < 24 ∧ l.d < 512

/-- The elapsed time is not negative, the clock is not halted in the future, and the snapshot is in range. -/
def ClockOk (r : Rtc) (now : Int) : Prop :=
  0 ≤ elapsed r now ∧ (r.halted = true → r.haltedInstant ≤ now) ∧ LatchedOk r.latched

theorem rtcOk_iff {s : State} : RtcOk s ↔ ClockOk s.g1.rtc (nowOf s) := Iff.rfl

theorem clockOk_later {r : Rtc} {now later : Int} (h : now ≤ later) (hr : ClockOk r now) : ClockOk r later := by
  obtain ⟨he, hh, hl⟩ := hr
  refine ⟨?_, fun hhalt => (hh hhalt).trans h, hl⟩
  cases hhalted : r.halted <;> simp only [elapsed, hhalted] at he ⊢
  · exact he.trans (Int.sub_le_sub_right h _)
  · exact he

theorem latchedOk_rtcSnapshot (r : Rtc) (now : Int) : LatchedOk (rtcSnapshot r now) := by
  have below (e m : Int) (c : Nat) (hc : 0 < c) : (unitOf e m c).toNat < c := by
    have h0 := Int.emod_nonneg (e / m) (Int.natCast_ne_zero.2 hc.ne')
    have h1 := Int.emod_lt_of_pos (e / m) (Int.natCast_pos.2 hc)
    unfold unitOf
    omega
  exact ⟨below _ _ 60 (by decide), below _ _ 60 (by decide), below _ _ 24 (by decide), below _ _ 512 (by decide)⟩

theorem clockOk_fresh (now : Int) : ClockOk (.fresh now) now :=
  ⟨by simp [elapsed, Rtc.fresh], nofun, by simp [LatchedOk, Rtc.fresh]⟩

theorem normalElapsed_eq (s : State) : normalElapsed s = elapsedOf s
    - (if 512 ≤ elapsedOf s / 86400 then 86400 * 512 * (elapsedOf s / 86400 / 512) else 0) := by
  rw [normalElapsed, rtcNormalize_eq]
  exact sub_add_eq_sub_sub _ _ _

/-- `Normalize()` takes off whole cycles that have passed (R415). -/
theorem normalElapsed_nonneg {s : State} (hs : 0 ≤ elapsedOf s) : 0 ≤ normalElapsed s := by
  rw [normalElapsed_eq]
  split <;> omega

/-- A unit set in a time that is not negative leaves it so: the time holds the unit's old value (R418). -/
theorem add_set_nonneg {e m c new : Int} (he : 0 ≤ e) (hm : 0 < m) (hc : 0 < c) (h0 : 0 ≤ new) :
    0 ≤ e + (new - unit e m c) * m := by
  have hq : unit e m c ≤ e / m := by
    have := Int.emod_add_mul_ediv (e / m) c
    have := Int.mul_nonneg hc.le (Int.ediv_nonneg (Int.ediv_nonneg he hm.le) hc.le)
    unfold unit
    omega
  calc 0 ≤ (new + (e / m - unit e m c)) * m + e % m :=
        Int.add_nonneg (Int.mul_nonneg (by omega) hm.le) (Int.emod_nonneg _ hm.ne')
    _ = e % m + m * (e / m) + (new - unit e m c) * m := by ring
    _ = e + (new - unit e m c) * m := by rw [Int.emod_add_mul_ediv]

section
variable {s : State} (hs : RtcOk s)
include hs

theorem clockOk_rtcNormalize : ClockOk (rtcNormalize (nowOf s) s.g1.rtc) (nowOf s) := by
  obtain ⟨he, hh, hl⟩ := rtcOk_iff.1 hs
  refine ⟨normalElapsed_nonneg he, ?_⟩
  rw [rtcNormalize_eq]
  exact ⟨hh, hl⟩

theorem clockOk_clockWith {m c new : Int} {l : Latched} (h : IsClockUnit m c) (hc : 0 < c) (h0 : 0 ≤ new)
    (hl : LatchedOk l) : ClockOk (clockWith s m c new l) (nowOf s) := by
  obtain ⟨he, hh, -⟩ := rtcOk_iff.1 hs
  refine ⟨?_, hh, hl⟩
  rw [elapsed_clockWith s h]
  exact add_set_nonneg (normalElapsed_nonneg he) h.1 hc h0

end

theorem clockOk_rtcSetHalt {r : Rtc} {now : Int} (halt carry : Bool) (hr : ClockOk r now) :
    ClockOk { rtcSetHalt now halt r with carry := carry } now := by
  obtain ⟨he, hh, hl⟩ := hr
  refine ⟨?_, ?_, ?_⟩
  · have h := elapsed_rtcSetHalt now now halt carry r
    rw [sub_self, ite_self, sub_zero] at h
    rwa [h]
  · rw [rtcSetHalt_eq]
    intro hhalt
    change (if halt = true ∧ r.halted = false then now else r.haltedInstant) ≤ now
    split
    · exact le_refl now
    · rename_i hn
      exact hh (by simpa [show halt = true from hhalt] using hn)
  · rw [rtcSetHalt_eq]
    exact hl

theorem dayLow_lt (d : Nat) (v : Byte) : dayLow d v < 512 := by
  have := v.isLt
  unfold dayLow
  omega

theorem dayHigh_lt (d : Nat) (v : Byte) : dayHigh d v < 512 := by
  unfold dayHigh
  split <;> omega

/-- A write of a clock register with a value in range (R418, R419, R423). -/
theorem clockOk_rtcStore {s : State} (hs : RtcOk s) {sel v : Byte} (hv : rtcInRange sel v = true) :
    ClockOk (rtcStore (nowOf s) sel v s.g1.rtc) (nowOf s) := by
  obtain ⟨-, -, hsec, hmin, hhour, hday⟩ := rtcOk_iff.1 hs
  have hv0 : (0 : Int) ≤ v.toNat := Int.natCast_nonneg _
  by_cases h8 : sel = 0x08
  · subst h8
    rw [rtcStore_seconds]
    exact clockOk_clockWith hs isClockUnit_seconds (by decide) hv0 ⟨of_decide_eq_true hv, hmin, hhour, hday⟩
  by_cases h9 : sel = 0x09
  · subst h9
    rw [rtcStore_minutes]
    exact clockOk_clockWith hs isClockUnit_minutes (by decide) hv0 ⟨hsec, of_decide_eq_true hv, hhour, hday⟩
  by_cases hA : sel = 0x0A
  · subst hA
    rw [rtcStore_hours]
    exact clockOk_clockWith hs isClockUnit_hours (by decide) hv0 ⟨hsec, hmin, of_decide_eq_true hv, hday⟩
  by_cases hB : sel = 0x0B
  · subst hB
    rw [rtcStore_dayLow]
    exact clockOk_clockWith hs isClockUnit_days (by decide) (withDayLow_range v _).1
      ⟨hsec, hmin, hhour, dayLow_lt _ v⟩
  by_cases hC : sel = 0x0C
  · subst hC
    rw [rtcStore_flags]
    exact clockOk_rtcSetHalt _ _ (clockOk_clockWith hs isClockUnit_days (by decide) (withDayHigh_range v _).1
      ⟨hsec, hmin, hhour, dayHigh_lt _ v⟩)
  · rw [rtcStore, if_neg h8, if_neg h9, if_neg hA, if_neg hB, if_neg hC]
    exact hs

/-! ### The clock of a save file (48_persistence.md R555, R556) -/

theorem latchedOk_trailerLatched {l : List Byte} (h : fieldsInRange l 0x14 = true) : LatchedOk (trailerLatched l) := by
  simp only [fieldsInRange, Bool.and_eq_true, decide_eq_true_eq] at h
  obtain ⟨⟨⟨⟨hs, hm⟩, hh⟩, -⟩, -⟩ := h
  refine ⟨Nat.lt_succ_of_le hs, Nat.lt_succ_of_le hm, Nat.lt_succ_of_le hh, ?_⟩
  change daysOf _ _ < 512
  unfold daysOf
  split <;> omega

theorem clockOk_rtcLoad {l : List Byte} (h : fieldsInRange l 0x14 = true) (now : Int) :
    ClockOk (rtcLoad l now) now := by
  refine ⟨?_, fun _ => le_refl now, latchedOk_trailerLatched h⟩
  change 0 ≤ (if trailerHalted l then now else now) - (trailerBase l now - trailerElapsed l)
  unfold trailerBase
  split <;> omega

theorem load1_rtc {f : SaveFile} {s t : State} (h : load1 f s = .next t) :
    t.g1.rtc = s.g1.rtc ∨ t.g1.rtc = .fresh s.host.now
      ∨ ∃ l, fieldsInRange l 0x14 = true ∧ t.g1.rtc = rtcLoad l s.host.now := by
  unfold load1 at h
  split at h
  · cases f <;> cases h
    exact .inl rfl
  cases f with
  | absent => cases h; exact .inr (.inl rfl)
  | unreadable => cases h
  | bytes l =>
    simp only [loadBytes1, loadTrailer] at h
    split at h
    · cases h; exact .inr (.inl rfl)
    split at h
    · split at h <;> cases h
      rename_i hl
      exact .inr (.inr ⟨_, hl.2, rfl⟩)
    · cases h

theorem rtcOk_load1 {f : SaveFile} {s t : State} (h : load1 f s = .next t) (hs : RtcOk s) : RtcOk t := by
  have hnow : nowOf t = s.host.now := by rw [load1_frame h]; rfl
  rw [rtcOk_iff, hnow]
  obtain hr | hr | ⟨l, hl, hr⟩ := load1_rtc h <;> rw [hr]
  · exact hs
  · exact clockOk_fresh _
  · exact clockOk_rtcLoad hl _

/-! ### Every move -/

/-- A latch strobe that is no change from 0x00 to 0x01 leaves the clock alone (R284). -/
theorem strobed_cases (v : Byte) (s : State) :
    strobed v s = s.g1.rtc ∨ strobed v s = rtcLatch (nowOf s) s.g1.rtc := by
  unfold strobed
  split
  · exact .inr rfl
  · exact .inl rfl

/-- A control write leaves the clock alone or latches it (42_bank_controllers.md R284, R416). -/
theorem writeControl_rtc (a : Half) (v : Byte) (s : State) :
    (writeControl a v s).g1.rtc = s.g1.rtc ∨ (writeControl a v s).g1.rtc = rtcLatch (nowOf s) s.g1.rtc := by
  unfold writeControl writeControlA writeControlB writeControlC writeControlD ramgA rombA rambA modeA
    ramgB rombB ramgC rombC rambC latchC ramgD romb0D romb1D rambD
  repeat' split
  case h_4.isFalse.isFalse.isFalse.isTrue => exact strobed_cases v s
  all_goals exact .inl rfl

theorem rtcOk_writeControl {s : State} (hs : RtcOk s) (a : Half) (v : Byte) : RtcOk (writeControl a v s) := by
  have hnow : nowOf (writeControl a v s) = nowOf s := by rw [writeControl_frame]; rfl
  rw [rtcOk_iff, hnow]
  obtain hr | hr := writeControl_rtc a v s <;> rw [hr]
  · exact hs
  · obtain ⟨he, hh, -⟩ := clockOk_rtcNormalize hs
    exact ⟨he, hh, latchedOk_rtcSnapshot _ _⟩

theorem rtcOk_normalizedFor {s : State} (hs : RtcOk s) : RtcOk (normalizedFor s) := by
  unfold normalizedFor
  split
  · exact clockOk_rtcNormalize hs
  · exact hs

theorem rtcOk_of_clock_eq {s t : State} (h : clockAndBank t = clockAndBank s) (hs : RtcOk s) : RtcOk t := by
  obtain ⟨hnow, hrtc, -⟩ := clockAndBank_eq_iff.1 h
  rw [rtcOk_iff, nowOf, hnow, hrtc]
  exact hs

theorem ClockMove.rtcOk {s t : State} (h : ClockMove s t) (hs : RtcOk s) : RtcOk t := by
  cases h with
  | control a v => exact rtcOk_writeControl hs a v
  | store sel v hv => exact clockOk_rtcStore hs hv
  | normalize => exact rtcOk_normalizedFor hs
  | load f _ h => exact rtcOk_load1 h hs

theorem Move.rtcOk {s t : State} (h : Move s t) (hs : RtcOk s) : RtcOk t := by
  obtain hsame | ⟨-, hclock⟩ := h.clock_cases
  · exact rtcOk_of_clock_eq hsame hs
  · exact hclock.rtcOk hs

/-- Settles O7: every move on the clock keeps it in order, and the wall clock of a call is not before the last
one's (R15). -/
theorem stepKeepsClockSane : Obligations.StepKeepsClockSane :=
  fun _ _ hs h => step_keeps (fun _ _ => Move.rtcOk) (fun _ _ _ hnow hs => clockOk_later hnow hs) (fun _ hs => hs) h hs

end Sys2Proof.Machine
end

section
/-! PROOFS. Every step keeps the bus blocked exactly while the object-memory DMA is Active, and the counts of
both DMA engines of generation 1 in range (46_dma_gen1.md R456, R472). -/
namespace Sys2Proof.Machine

open Sys2Proof.Safety

/-! ### The invariant, engine by engine -/

/-- All that `Dma1Ok` reads of a state beside its parameters. -/
def dma1 (s : State) : Blocked × OamDma × Vdma := (s.g1.blocked, s.g1.oamDma, s.g1.vdma)

/-- The blocked bus and the index of the object-memory DMA as R456 and R472 say. -/
def oamDmaOk (c : Config) (b : Blocked) (d : OamDma) : Prop :=
  b = (if d.state = .active then (busOf c d.src).toBlocked else .none)
    ∧ (d.state ≠ .inactive → d.index < 160)

/-- The blocks left of the video-RAM DMA as R472 says. -/
def vdmaOk (d : Vdma) : Prop := d.state ≠ .inactive → 1 ≤ d.blocks ∧ d.blocks ≤ 128

theorem dma1Ok_iff {s : State} :
    Dma1Ok s ↔ oamDmaOk s.cfg s.g1.blocked s.g1.oamDma ∧ vdmaOk s.g1.vdma := and_assoc.symm

theorem dma1Ok_of_dma1_eq {s t : State} (hc : t.cfg = s.cfg) (h : dma1 t = dma1 s) (hs : Dma1Ok s) :
    Dma1Ok t := by
  simp only [dma1, Prod.mk.injEq] at h
  obtain ⟨hb, ho, hv⟩ := h
  rw [dma1Ok_iff, hc, hb, ho, hv]
  exact dma1Ok_iff.1 hs

theorem oamDmaOk_inactive {c : Config} {d : OamDma} (h : d.state = .inactive) : oamDmaOk c .none d := by
  simp [oamDmaOk, h]

theorem vdmaOk_inactive {d : Vdma} (h : d.state = .inactive) : vdmaOk d := fun hn => absurd h hn

/-! ### The object-memory DMA (R451, R453 to R455) -/

section
variable {s : State} (hs : Dma1Ok s)
include hs

theorem dma1Ok_oamEnterActive (h : s.g1.oamDma.state = .starting) : Dma1Ok (oamEnterActive s) := by
  obtain ⟨⟨-, hindex⟩, hv⟩ := dma1Ok_iff.1 hs
  exact dma1Ok_iff.2 ⟨⟨rfl, fun _ => hindex (by rw [h]; nofun)⟩, hv⟩

theorem dma1Ok_writeDma (v : Byte) : Dma1Ok (writeDma v s) := by
  obtain ⟨-, hv⟩ := dma1Ok_iff.1 hs
  refine dma1Ok_iff.2 ⟨?_, by rw [writeDma_frame]; exact hv⟩
  rw [writeDma_eq]
  refine ⟨?_, fun _ => Nat.zero_lt_succ _⟩
  by_cases h : s.cfg.timing.oamStart = 0 <;> simp [h, Claims.with1]

/-- A unit moves the index on, and the last one releases the bus. -/
theorem dma1Ok_oamUnit (b : Byte) (h : s.g1.oamDma.state = .active) : Dma1Ok (oamNext (oamStore b s)) := by
  obtain ⟨⟨hblocked, hindex⟩, hv⟩ := dma1Ok_iff.1 hs
  unfold oamNext
  split
  · exact dma1Ok_iff.2 ⟨oamDmaOk_inactive rfl, hv⟩
  · rename_i hlast
    have hlt : s.g1.oamDma.index < 160 := hindex (by rw [h]; nofun)
    have hne : s.g1.oamDma.index + 1 ≠ 160 := hlast
    exact dma1Ok_iff.2 ⟨⟨hblocked, fun _ => show s.g1.oamDma.index + 1 < 160 by omega⟩, hv⟩

/-! ### The video-RAM DMA (R462 to R467) -/

theorem dma1Ok_setVdma {d : Vdma} (hd : vdmaOk s.g1.vdma → vdmaOk d) : Dma1Ok (setVdma d s) := by
  obtain ⟨ho, hv⟩ := dma1Ok_iff.1 hs
  exact dma1Ok_iff.2 ⟨ho, hd hv⟩

end

theorem vdmaBlocks_range (v : Byte) : 1 ≤ vdmaBlocks v ∧ vdmaBlocks v ≤ 128 := by
  have h : (v &&& 0x7F).toNat ≤ 0x7F := and_le_byte v 0x7F
  unfold vdmaBlocks
  omega

/-- A write of 0xFF55 starts or arms a transfer of 1 to 128 blocks, or ends one. -/
theorem vdmaOk_hdma5 {t : Timing} {v : Byte} {d e : Vdma} (h : hdma5 t v d = .next e) : vdmaOk e := by
  unfold hdma5 at h
  repeat' split at h
  · cases h
  · cases h; exact fun _ => vdmaBlocks_range v
  · cases h; exact vdmaOk_inactive rfl
  · cases h; exact fun _ => vdmaBlocks_range v

theorem dma1Ok_writeVdmaReg {a : Half} {v : Byte} {s t : State} (h : writeVdmaReg a v s = .next t)
    (hs : Dma1Ok s) : Dma1Ok t := by
  unfold writeVdmaReg at h
  repeat' split at h
  case isFalse.isFalse.isFalse.isFalse.isFalse =>
    obtain ⟨d, hd, ht⟩ := bindR_eq_next.1 h
    cases ht
    exact dma1Ok_setVdma hs fun _ => vdmaOk_hdma5 hd
  case isTrue => cases h; exact hs
  all_goals cases h; exact dma1Ok_setVdma hs id

theorem dma1Ok_vdmaHBlank {s : State} (hs : Dma1Ok s) : Dma1Ok (vdmaHBlank s) := by
  unfold vdmaHBlank
  split
  · rename_i h
    exact dma1Ok_setVdma hs fun hv _ => hv (by rw [h.1]; nofun)
  · exact hs

/-- After a block that is not the last one fewer is left (R466). -/
theorem vdmaOk_vdmaAfterBlock (t : Timing) {d : Vdma} (h : d.state = .active) (hd : vdmaOk d) :
    vdmaOk (vdmaAfterBlock t d) := by
  obtain ⟨-, hmax⟩ := hd (by rw [h]; nofun)
  unfold vdmaAfterBlock
  split
  · exact vdmaOk_inactive rfl
  · rename_i hne
    have left : 1 ≤ d.blocks - 1 ∧ d.blocks - 1 ≤ 128 := by omega
    split <;> exact fun _ => left

/-! ### Every move -/

theorem Move.dma1Ok {s t : State} (h : Move s t) (hs : Dma1Ok s) : Dma1Ok t := by
  have keep (ht : dma1 t = dma1 s) : Dma1Ok t := dma1Ok_of_dma1_eq h.cfg ht hs
  cases h with
  | oamEnter _ _ h => exact dma1Ok_oamEnterActive hs h
  | dmaReg v _ _ => exact dma1Ok_writeDma hs v
  | oamUnit b _ _ h => exact dma1Ok_oamUnit hs b h
  | oamCount _ _ _ => exact hs
  | vdmaReg a v _ _ _ h => exact dma1Ok_writeVdmaReg h hs
  | hblank _ _ => exact dma1Ok_vdmaHBlank hs
  | vdmaCount _ _ _ => exact dma1Ok_setVdma hs id
  | vdmaStore b _ _ _ => exact dma1Ok_setVdma (s := writeVram _ b s) hs id
  | vdmaBlockEnd _ _ h => exact dma1Ok_setVdma hs (vdmaOk_vdmaAfterBlock _ h)
  | control a v _ _ => exact keep (by rw [writeControl_frame]; rfl)
  | nvs1 o v _ _ => exact keep (by rw [writeNvs1_frame]; rfl)
  | vbk v _ _ => exact keep (by rw [writeVbk_frame]; rfl)
  | boot v _ _ => exact keep (by unfold writeBoot; split <;> rfl)
  | svbk v _ _ => exact keep (by rw [writeSvbk_frame]; rfl)
  | normalize _ _ => exact keep (by rw [normalizedFor_frame]; rfl)
  | pal a w v _ _ => exact keep (by rw [writePal_frame]; rfl)
  | vram2 a w v _ _ => exact keep (by rw [writeVram2_frame]; rfl)
  | oam2 a w v _ _ => exact keep (by rw [writeOam2_frame]; rfl)
  | storage o v _ _ _ h => exact keep (by rw [storageWriteByte_frame h]; rfl)
  | sniffStorage o v _ _ _ => exact keep (by rw [sniffStorage_frame]; rfl)
  | appendBit b _ _ => exact keep (by rw [appendBit_frame]; rfl)
  | endStream _ _ => exact keep (by rw [endStream_frame]; rfl)
  | unitEnd k c₀ _ _ => exact keep (by rw [dma1, afterUnit_g1]; rfl)
  | rearm k _ _ => exact keep (by rw [dma1, rearm_g1]; rfl)
  | load f _ _ h => exact keep (by rw [callLoad_frame h]; rfl)
  | _ => exact keep rfl

/-- Settles O8: each engine's moves keep its own count in range and the object-memory DMA's keep the blocked
bus, and no other move touches either engine. -/
theorem stepKeepsGen1DmaCounts : Obligations.StepKeepsGen1DmaCounts :=
  fun _ _ hs h => step_keeps (fun _ _ => Move.dma1Ok) (fun _ _ _ _ hs => hs) (fun _ hs => hs) h hs

end Sys2Proof.Machine
end

section
/-! PROOFS. The registers of the video-RAM DMA, 0xFF51 to 0xFF55, as the CPU writes and reads them
(46_dma_gen1.md R461 to R465, R470; 41_bus.md R234). -/
namespace Sys2Proof.Machine

open Sys2Proof.Claims

/-! ### The address registers (R461) -/

theorem append_eq_or {n m : Nat} (x : BitVec n) (y : BitVec m) :
    x ++ y = x.setWidth (n + m) <<< m ||| y.setWidth (n + m) := by
  rw [BitVec.append_def, BitVec.shiftLeftZeroExtend_eq, BitVec.setWidth'_eq]

section
variable (v : Byte) (d : Vdma)

theorem hdma1_eq : hdma1 v d = { d with src := (v.setWidth 16 <<< 8) ||| (d.src &&& 0x00F0) } := by
  refine congrArg (fun x : Half => { d with src := x }) ?_
  rw [append_eq_or, loByte]
  ext i hi
  interval_cases i <;> simp

theorem hdma2_eq : hdma2 v d = { d with src := (d.src &&& 0xFF00) ||| (v.setWidth 16 &&& 0xF0) } := by
  refine congrArg (fun x : Half => { d with src := x }) ?_
  rw [append_eq_or, hiByte]
  ext i hi
  interval_cases i <;> simp

theorem hdma3_eq :
    hdma3 v d = { d with dst := ((v.setWidth 13 &&& 0x1F) <<< 8) ||| (d.dst &&& 0x00F0) } := by
  refine congrArg (fun x : BitVec 13 => { d with dst := x }) ?_
  rw [append_eq_or]
  ext i hi
  interval_cases i <;> simp

theorem hdma4_eq : hdma4 v d = { d with dst := (d.dst &&& 0x1F00) ||| (v.setWidth 13 &&& 0xF0) } := by
  refine congrArg (fun x : BitVec 13 => { d with dst := x }) ?_
  rw [append_eq_or]
  ext i hi
  interval_cases i <;> simp

end

/-- A write of an address register sets the channel on a colour machine only (R234). -/
theorem cpuWrite8_hdma {s : State} {a : Half} {v : Byte} {d e : Vdma} (h : Open1 s a) (ho : ownsIo a = true)
    (hw : ownedWrite a v s = if s.cfg.cgb = false then .next s else .next (setVdma d s)) (hd : d = e) :
    cpuWrite8 (gbAddr a) v s = .next (if s.cfg.cgb then with1 s { s.g1 with vdma := e } else s) := by
  rw [cpuWrite8_owned h ho, hw, hd]
  cases s.cfg.cgb <;> rfl

/-- Settles O27: each register is owned, and a write of it sets one byte of an address on a colour machine. -/
theorem videoDmaAddressRegisters : Obligations.VideoDmaAddressRegisters := fun s v =>
  ⟨fun h => ⟨cpuWrite8_hdma h rfl rfl (hdma1_eq v s.g1.vdma), cpuRead8_owned h rfl⟩,
   fun h => ⟨cpuWrite8_hdma h rfl rfl (hdma2_eq v s.g1.vdma), cpuRead8_owned h rfl⟩,
   fun h => ⟨cpuWrite8_hdma h rfl rfl (hdma3_eq v s.g1.vdma), cpuRead8_owned h rfl⟩,
   fun h => ⟨cpuWrite8_hdma h rfl rfl (hdma4_eq v s.g1.vdma), cpuRead8_owned h rfl⟩⟩

/-! ### The length register (R462 to R465, R470) -/

section
variable {s : State} (h : Open1 s 0xFF55)
include h

theorem cpuWrite8_hdma5 (v : Byte) :
    cpuWrite8 (gbAddr 0xFF55) v s
      = if s.cfg.cgb = false then .next s
        else bindR (hdma5 s.cfg.timing v s.g1.vdma) fun d => .next (setVdma d s) :=
  cpuWrite8_owned h rfl v

theorem cpuRead8_hdma5 : cpuRead8 (gbAddr 0xFF55) s = .next (gave (byte (readHdma5 s)) s) :=
  cpuRead8_owned h rfl

end

theorem getLsbD_mode (b : BitVec 1) (len : BitVec 7) : (b ++ len : Byte).getLsbD 7 = b.getLsbD 0 := by
  rw [BitVec.getLsbD_append]
  rfl

theorem vdmaBlocks_append (b : BitVec 1) (len : BitVec 7) : vdmaBlocks (b ++ len) = len.toNat + 1 := by
  have h : ((b ++ len : Byte) &&& 0x7F).toNat = (len.toNat + b.toNat * 2 ^ 7) % 2 ^ 7 := by
    rw [BitVec.toNat_and, append_toNat]
    exact Nat.and_two_pow_sub_one_eq_mod _ 7
  have := len.isLt
  unfold vdmaBlocks
  omega

section
variable {t : Timing} {d : Vdma} (len : BitVec 7)

theorem hdma5_general (h : ¬ (d.mode = .hblank ∧ d.state = .paused)) :
    hdma5 t (0#1 ++ len) d = .next { d with
      mode := .general, blocks := len.toNat + 1, state := .active, counter := t.vdmaBlock } := by
  rw [hdma5, if_neg (by rw [getLsbD_mode]; decide), if_neg h, gdmaStart, vdmaBlocks_append]

theorem hdma5_arm (h : d.state = .inactive) :
    hdma5 t (1#1 ++ len) d = .next { d with
      mode := .hblank, blocks := len.toNat + 1, state := .paused } := by
  rw [hdma5, if_pos (by rw [getLsbD_mode]; decide), if_neg (by simp [hdmaRunning, h]), hdmaArm, vdmaBlocks_append]

theorem hdma5_cancel (hm : d.mode = .hblank) (h : d.state = .paused) :
    hdma5 t (0#1 ++ len) d = .next (hdmaCancel d) := by
  rw [hdma5, if_neg (by rw [getLsbD_mode]; decide), if_pos ⟨hm, h⟩]

theorem hdma5_restart (hm : d.mode = .hblank) (h : d.state = .paused) :
    hdma5 t (1#1 ++ len) d = .refused .vdmaRestart := by
  rw [hdma5, if_pos (by rw [getLsbD_mode]; decide), if_pos (by simp [hdmaRunning, hm, h])]

end

/-- Settles O28: every row is the access of 0xFF55 (R171), which the transfer's state and bit 7 decide. -/
theorem videoDmaLengthRegister : Obligations.VideoDmaLengthRegister := by
  intro s len h
  have clear := cpuWrite8_hdma5 h (0#1 ++ len)
  have set := cpuWrite8_hdma5 h (1#1 ++ len)
  have read := cpuRead8_hdma5 h
  refine ⟨fun hc => ?_, fun hc hi => ?_, fun hc hp hm => ?_⟩
  · rw [if_pos hc] at clear set
    rw [readHdma5, hc] at read
    exact ⟨clear, set, clear, set, read⟩
  · rw [if_neg (by rw [hc]; nofun), hdma5_general len (by rw [hi]; nofun)] at clear
    rw [if_neg (by rw [hc]; nofun), hdma5_arm len hi] at set
    rw [readHdma5, if_pos hc, vdmaStatusByte, if_pos hi] at read
    exact ⟨clear, clear, set, set, read⟩
  · rw [if_neg (by rw [hc]; nofun), hdma5_cancel len hm hp] at clear
    rw [if_neg (by rw [hc]; nofun), hdma5_restart len hm hp] at set
    rw [readHdma5, if_pos hc, vdmaStatusByte, if_neg (by rw [hp]; nofun)] at read
    exact ⟨clear, clear, set, set, read⟩

end Sys2Proof.Machine
end

section
/-! PROOFS. A whole transfer of the object-memory DMA: the start delay, then 160 units of one byte each
(46_dma_gen1.md R451 to R456, 41_bus.md R226, R227). -/
namespace Sys2Proof.Machine

open Sys2Proof.Safety Sys2Proof.Claims

/-! ### Cycles in which the engine counts (R453, R454) -/

theorem tick1_gen1 {s : State} (g : s.cfg.gen = .gen1) : tick1 s = .next (gen1Tick1 s) := by
  have g' : (gen1Tick1 s).cfg.gen = .gen1 := by rw [(gen1Tick1_moves s g).cfg, g]
  simp only [tick1, enginesTick1, g, bindR_next, completionTick1, g']

theorem ticks_one (s : State) : ticks 1 s = tick1 s := bindR_pure (tick1 s)

/-- The video-RAM DMA does not run. -/
def VdmaHeld (s : State) : Prop := s.cfg.cgb = true → s.g1.vdma.state ≠ .active

section
variable {s : State} (g : s.cfg.gen = .gen1) (hv : VdmaHeld s)
include g hv

theorem tick1_oam (hv' : (oamTick1 s).g1.vdma = s.g1.vdma) : tick1 s = .next (oamTick1 s) := by
  rw [tick1_gen1 g, gen1Tick1]
  split
  · rename_i hc
    rw [vdmaTick1, hv', if_neg (hv hc)]
  · rfl

theorem tick1_oamCount (h : s.g1.oamDma.state ≠ .inactive) (hc : s.g1.oamDma.counter - 1 ≠ 0) :
    tick1 s = .next (oamCount s) := by
  have ht : oamTick1 s = oamCount s := by
    unfold oamTick1
    split
    · rename_i hi
      exact absurd hi h
    · exact if_neg hc
    · exact if_neg hc
  rw [tick1_oam g hv (by rw [ht]; rfl), ht]

/-- As long as the count does not run out, nothing but the count changes. -/
theorem ticks_oamCount {n : Nat} (h : s.g1.oamDma.state ≠ .inactive) (hc : (n : Int) < s.g1.oamDma.counter) :
    ticks n s = .next (setOamDma { s.g1.oamDma with counter := s.g1.oamDma.counter - n } s) := by
  induction n generalizing s with
  | zero => simp [ticks, setOamDma]
  | succ n ih =>
    have hlast : (oamCount s).g1.oamDma.counter = s.g1.oamDma.counter - 1 := rfl
    rw [ticks, tick1_oamCount g hv h (by omega), bindR_next, ih (s := oamCount s) g hv h (by omega), hlast,
      show s.g1.oamDma.counter - 1 - n = s.g1.oamDma.counter - (n + 1 : Nat) by omega]
    rfl

/-- The cycle in which a count of at least 1 runs out. -/
theorem ticks_oamDue {n : Nat} (h : s.g1.oamDma.state ≠ .inactive) (hn : 1 ≤ n) (hc : s.g1.oamDma.counter = n) :
    ticks n s = tick1 (setOamDma { s.g1.oamDma with counter := 1 } s) := by
  obtain ⟨n, rfl⟩ := Nat.exists_eq_add_of_le' hn
  have hone : s.g1.oamDma.counter - n = 1 := by omega
  rw [ticks_add, ticks_oamCount g hv h (by omega), hone, bindR_next, ticks_one]

end

/-! ### The source page (R452, R454) -/

/-- Byte `i` of the page `v` of the first work-RAM bank. -/
def pageByte (s : State) (v : Byte) (i : Nat) : Byte := s.g1.wram.read ((v.toNat - 0xC0) * 256 + i)

/-- A read by the engine inside a page of the first work-RAM bank. -/
theorem read1_page {s : State} {v : Byte} {i : Nat} (g : s.cfg.gen = .gen1) (hr : constructionRefusal s.cfg = none)
    (h1 : 0xC0 ≤ v) (h2 : v ≤ 0xCF) (hi : i < 160) :
    read1 .oam (BitVec.ofNat 16 (v.toNat * 256) + BitVec.ofNat 16 i) s = (pageByte s v i, s) := by
  have ha : (BitVec.ofNat 16 (v.toNat * 256) + BitVec.ofNat 16 i).toNat = v.toNat * 256 + i := by
    have := v.isLt
    simp only [BitVec.toNat_add, BitVec.toNat_ofNat]
    omega
  have hl : 0xC0 ≤ v.toNat := h1
  have hh : v.toNat ≤ 0xCF := h2
  have hw : workOffset s (v.toNat * 256 + i) = (v.toNat - 0xC0) * 256 + i := by
    simp only [workOffset]
    split <;> split <;> omega
  have hat : ram1At s (v.toNat * 256 + i) = some (.wram, (v.toNat - 0xC0) * 256 + i) := by
    rw [ram1At, if_neg (by omega), if_pos (by omega), hw]
  have hopen : Open1By s .oam (BitVec.ofNat 16 (v.toNat * 256) + BitVec.ofNat 16 i) := ⟨g, hr, .inr (.inl rfl)⟩
  rw [← ha] at hat
  obtain ⟨habove, hread, -⟩ := region1_ram1 hat
  rw [read1_open1 hopen, openRead1_above hopen habove, hread]
  rfl

/-! ### The transfer under way -/

/-- Object memory with the page's first `n` bytes copied into it. -/
def copied (s : State) (v : Byte) (n : Nat) : Image :=
  (List.range n).foldl (fun m i => m.write (0 + i) (pageByte s v i)) s.g1.oam

/-- The byte last read once `n` bytes are copied. -/
def lastCopied (s : State) (v : Byte) : Nat → Byte
  | 0 => s.g1.dmaLastByte
  | n + 1 => pageByte s v n

/-- The transfer from page `v`, Active, with `n` bytes copied and the count `c`. -/
def copying (s : State) (v : Byte) (n : Nat) (c : Int) : State :=
  with1 s { s.g1 with
    oam := copied s v n,
    oamDma := { state := .active, reg := v, src := BitVec.ofNat 16 (v.toNat * 256), index := n, counter := c },
    blocked := (busOf s.cfg (BitVec.ofNat 16 (v.toNat * 256))).toBlocked,
    dmaLastByte := lastCopied s v n }

/-- The transfer from page `v` in its start delay, with the count `c`. -/
def delayed (s : State) (v : Byte) (c : Int) : State :=
  with1 s { s.g1 with
    oamDma := { state := .starting, reg := v, src := BitVec.ofNat 16 (v.toNat * 256), index := 0, counter := c },
    blocked := .none }

theorem copied_succ (s : State) (v : Byte) (n : Nat) :
    copied s v (n + 1) = (copied s v n).write n (pageByte s v n) := by
  rw [copied, List.range_succ, List.foldl_append, ← copied, List.foldl_cons, List.foldl_nil, Nat.zero_add]

section
variable {s : State} {v : Byte} (g : s.cfg.gen = .gen1) (hr : constructionRefusal s.cfg = none)
  (hv : VdmaHeld s) (h1 : 0xC0 ≤ v) (h2 : v ≤ 0xCF)
include g hr h1 h2

theorem oamUnit_copying {n : Nat} (hn : n < 160) :
    oamUnit (copying s v n 0) = oamNext (copying s v (n + 1) 0) := by
  have hread : read1 .oam (oamAddr (copying s v n 0).g1.oamDma) (copying s v n 0)
      = (pageByte s v n, copying s v n 0) := read1_page g hr h1 h2 hn
  have hstore : oamStore (pageByte s v n) (copying s v n 0) = copying s v (n + 1) 0 := by
    rw [copying, copying, copied_succ]
    rfl
  rw [oamUnit, hread, hstore]

include hv

theorem ticks_unit {n : Nat} (hn : n < 160) :
    ticks s.cfg.timing.oamUnit (copying s v n s.cfg.timing.oamUnit)
      = .next (oamNext (copying s v (n + 1) 0)) := by
  obtain ⟨-, ⟨-, -, -, -, hunit, -⟩, -⟩ := constructionRefusal_eq_none.1 hr
  have htick : oamTick1 (copying s v n 1) = oamNext (copying s v (n + 1) 0) := oamUnit_copying g hr h1 h2 hn
  rw [ticks_oamDue (s := copying s v n s.cfg.timing.oamUnit) g hv (by nofun) hunit rfl]
  change tick1 (copying s v n 1) = _
  rw [tick1_oam (s := copying s v n 1) g hv (by rw [htick, oamNext_frame]; rfl), htick]

/-- All units but the last, each followed by the next one's count (R454). -/
theorem ticks_units {n : Nat} (hn : n < 160) :
    ticks (n * s.cfg.timing.oamUnit) (copying s v 0 s.cfg.timing.oamUnit)
      = .next (copying s v n s.cfg.timing.oamUnit) := by
  induction n with
  | zero => rw [Nat.zero_mul, ticks]
  | succ n ih =>
    have hnext : oamNext (copying s v (n + 1) 0) = copying s v (n + 1) s.cfg.timing.oamUnit :=
      if_neg (show n + 1 ≠ 160 by omega)
    rw [Nat.succ_mul, ticks_add, ih (by omega), bindR_next, ticks_unit g hr hv h1 h2 (by omega), hnext]

/-- The 160 units of a transfer, the last of which completes it (R455). -/
theorem ticks_transfer :
    ticks (160 * s.cfg.timing.oamUnit) (copying s v 0 s.cfg.timing.oamUnit)
      = .next (oamComplete (copying s v 160 0)) := by
  have hnext : oamNext (copying s v 160 0) = oamComplete (copying s v 160 0) := if_pos rfl
  rw [show 160 * s.cfg.timing.oamUnit = 159 * s.cfg.timing.oamUnit + s.cfg.timing.oamUnit by omega,
    ticks_add, ticks_units g hr hv h1 h2 (by decide), bindR_next, ticks_unit g hr hv h1 h2 (by decide), hnext]

end

/-- What completes leaves the bytes copied and the last of them held (R455, R456). -/
theorem oamComplete_copying (s : State) (v : Byte) (n : Nat) :
    oamComplete (copying s v (n + 1) 0) = with1 s { s.g1 with
      oam := copied s v (n + 1),
      oamDma := { state := .inactive, reg := v, src := BitVec.ofNat 16 (v.toNat * 256), index := n + 1,
                  counter := 0 },
      blocked := .none, dmaLastByte := pageByte s v n } := rfl

section
variable {s : State} {v : Byte} (h2 : v ≤ 0xCF)
include h2

theorem oamSource_page : oamSource v = BitVec.ofNat 16 (v.toNat * 256) := by
  rw [oamSource_eq_ofNat, if_neg (by bv_omega), Nat.sub_zero]

theorem writeDma_immediate (h : s.cfg.timing.oamStart = 0) :
    writeDma v s = copying s v 0 s.cfg.timing.oamUnit := by
  rw [writeDma_eq, oamSource_page h2]
  simp only [h, if_true]
  rfl

theorem writeDma_delayed (h : s.cfg.timing.oamStart ≠ 0) :
    writeDma v s = delayed s v s.cfg.timing.oamStart := by
  rw [writeDma_eq, oamSource_page h2]
  simp only [h, if_false]
  rfl

/-- The start delay, after which the engine is Active (R451, R453). -/
theorem ticks_writeDma (g : s.cfg.gen = .gen1) (hv : VdmaHeld s) :
    ticks s.cfg.timing.oamStart (writeDma v s) = .next (copying s v 0 s.cfg.timing.oamUnit) := by
  by_cases h : s.cfg.timing.oamStart = 0
  · rw [writeDma_immediate h2 h, h, ticks]
  · have htick : oamTick1 (delayed s v 1) = copying s v 0 s.cfg.timing.oamUnit := rfl
    rw [writeDma_delayed h2 h, ticks_oamDue (s := delayed s v s.cfg.timing.oamStart) g hv (by nofun)
      (Nat.one_le_iff_ne_zero.2 h) rfl]
    change tick1 (delayed s v 1) = _
    rw [tick1_oam (s := delayed s v 1) g hv (by rw [htick]; rfl), htick]

end

/-- Settles O41: the delay, then 160 units that copy one byte each. -/
theorem objectDmaCopiesPage : Obligations.ObjectDmaCopiesPage := by
  intro s t v h h1 h2 hm hs hv ht
  obtain ⟨g, hr, -⟩ := id h
  have hw : exec (.gbDmaWrite v) s = .next (writeDma v s) := cpuWrite8_owned h rfl v
  obtain rfl : writeDma v s = t := Host.Outcome.next.inj (hw.symm.trans ht)
  obtain ⟨⟨-, -, hwf, -⟩, -⟩ := memoryOk_iff.1 hm
  obtain ⟨-, -, hsize, -⟩ := hs
  obtain ⟨⟨hcopy, -⟩, -⟩ := storedAt_foldl hwf (o := 0) (pageByte s v) 160 (by omega)
  refine ⟨copied s v 160, ?_, fun i hi => ?_⟩
  · rw [exec_tick_of_nonneg (Int.natCast_nonneg _), Int.toNat_natCast, ticks_add, ticks_writeDma h2 g hv, bindR_next,
      ticks_transfer g hr hv h1 h2, oamComplete_copying]
    rfl
  · have hbyte : (copied s v 160).read (0 + i) = pageByte s v i := hcopy i hi
    rwa [Nat.zero_add] at hbyte

end Sys2Proof.Machine
end

section
/-! PROOFS. The cycle in which the video-RAM DMA moves a block: 16 bytes, each from where its source address
is, into the selected bank of video RAM (46_dma_gen1.md R466, R468, R469; 41_bus.md R227). -/
namespace Sys2Proof.Machine

open Sys2Proof.Safety Sys2Proof.Claims

/-! ### The source of a byte (R469) -/

theorem vdmaForbidden_iff {a : Half} : vdmaForbidden a = true ↔ Forbidden a.toNat := by
  rw [vdmaForbidden, Bool.or_eq_true, decide_eq_true_iff, decide_eq_true_iff]
  exact Iff.rfl

theorem openRead1_rom {s : State} {a : Half} (hl : LegalCart s.cfg.cart) (hb : BankOk s) (ha : a ≤ 0x7FFF) :
    openRead1 a s = (dmaSourceByte s a.toNat, s) := by
  have hrom : regionRead1 a s = (s.cfg.rom.read (romOffsetOf s a.toNat), s) := by
    rw [regionRead1_rom ha, readRom, mapRom_eq hl hb ha]
  rw [openRead1, echo_low (by bv_omega), dmaSourceByte, if_pos (show a.toNat ≤ 0x7FFF from ha)]
  cases ho : bootOverlay s a with
  | some m =>
    obtain ⟨hm, hcatches⟩ := bootOverlay_eq_some.1 ho
    rw [hm]
    dsimp only
    rw [if_pos hcatches]
  | none =>
    rw [hrom]
    cases hm : s.cfg.boot with
    | none => rfl
    | some m =>
      dsimp only
      rw [if_neg fun hcatches => by cases ho.symm.trans (bootOverlay_eq_some.2 ⟨hm, hcatches⟩)]

theorem readRam_dmaSource {s : State} {a : Half} (hl : LegalCart s.cfg.cart) (h1 : 0xA000 ≤ a) (h2 : a ≤ 0xBFFF) :
    readRam s a = dmaSourceByte s a.toNat := by
  rw [dmaSourceByte, if_neg (by bv_omega), if_pos (show a.toNat ≤ 0xBFFF from h2)]
  split
  · rename_i h
    obtain ⟨hf, hr, he, h8, hC⟩ := h
    rw [readRam, mapRam_of_rtcSelected h8 hC ⟨hf, hr, he, rfl⟩]
    exact rtcReadReg_eq s h8 hC
  · rename_i h
    refine readRam_eq hl h1 h2 fun sel h8 hC hsel => h ?_
    obtain ⟨hf, hr, he, rfl⟩ := hsel
    exact ⟨hf, hr, he, h8, hC⟩

theorem legalCart_of_legal {c : Config} (g : c.gen = .gen1) (hr : constructionRefusal c = none) :
    LegalCart c.cart := by
  obtain ⟨hd, -, h1, -⟩ := constructionRefusal_eq_none.1 hr
  exact otherDevice_and_cartOk_iff.1 ⟨hd, (refusal1_eq_none.1 (h1 g)).1⟩

/-- A block can be moved: the machine is a colour one that can be built, and its bank registers are in range. -/
structure MovesBlocks (s : State) : Prop where
  gen : s.cfg.gen = .gen1
  legal : constructionRefusal s.cfg = none
  colour : s.cfg.cgb = true
  bank : BankOk s

/-- A read by the engine from an address that R469 does not forbid changes nothing. -/
theorem read1_dmaSource {s : State} {a : Half} (h : MovesBlocks s) (hf : ¬ Forbidden a.toNat) :
    read1 .vdma a s = (dmaSourceByte s a.toNat, s) := by
  obtain ⟨g, hr, hc, hb⟩ := h
  have hopen : Open1By s .vdma a := ⟨g, hr, .inr (.inr ⟨rfl, hc⟩)⟩
  have hl := legalCart_of_legal g hr
  unfold Forbidden at hf
  rw [read1_open1 hopen]
  by_cases h7 : a ≤ 0x7FFF
  · exact openRead1_rom hl hb h7
  · rw [openRead1_above hopen (by bv_omega), echo_low (by bv_omega)]
    by_cases hB : a ≤ 0xBFFF
    · rw [regionRead1_ram (by bv_omega) hB, readRam_dmaSource hl (by bv_omega) hB]
    · have hat : ram1At s a.toNat = some (.wram, workOffset s a.toNat) := by
        rw [ram1At, if_neg (by bv_omega), if_pos (by bv_omega)]
      obtain ⟨-, hread, -⟩ := region1_ram1 hat
      rw [echo_low (by bv_omega)] at hread
      rw [hread, dmaSourceByte, if_neg (by bv_omega), if_neg (by bv_omega)]
      rfl

/-! ### The bytes of a block (R466, R468) -/

/-- The source address of byte `i`. -/
def sourceAt (s : State) (i : Nat) : Nat := (s.g1.vdma.src.toNat + i) % 0x10000

/-- The index in video RAM of the destination of byte `i`. -/
def placeAt (s : State) (i : Nat) : Nat := s.g1.vbk.toNat * 0x2000 + (s.g1.vdma.dst.toNat + i) % 0x2000

/-- The bytes among the first `n` whose source is forbidden, each a draw. -/
def drawnBytes (s : State) (n : Nat) : List Nat :=
  (List.range n).filter fun i => vdmaForbidden (s.g1.vdma.src + BitVec.ofNat 16 i)

/-- The state with `n` bytes of a block moved, and video RAM as they leave it. -/
def moved (s : State) (n : Nat) (m : Image) : State :=
  { with1 s { s.g1 with
      vram := m,
      vdma.src := s.g1.vdma.src + BitVec.ofNat 16 n, vdma.dst := s.g1.vdma.dst + BitVec.ofNat 13 n } with
    draws := s.draws + (drawnBytes s n).length }

/-- Video RAM after `n` bytes: those that R469 does not forbid are the source's, all others as before. -/
structure HoldsBlock (s : State) (n : Nat) (m : Image) : Prop where
  wf : m.wf = true
  size : m.size = s.g1.vram.size
  here : ∀ i < n, ¬ Forbidden (sourceAt s i) → m.read (placeAt s i) = dmaSourceByte s (sourceAt s i)
  elsewhere : ∀ x, (∀ i < n, x ≠ placeAt s i) → m.read x = s.g1.vram.read x

theorem toNat_source (s : State) (i : Nat) : (s.g1.vdma.src + BitVec.ofNat 16 i).toNat = sourceAt s i := by
  simp [sourceAt]

theorem vramIndex_dst (s : State) (i : Nat) :
    vramIndex s.g1.vbk (s.g1.vdma.dst + BitVec.ofNat 13 i).toNat = placeAt s i := by
  simp [vramIndex, placeAt]

theorem placeAt_ne {s : State} {i j : Nat} (hi : i < j) (hj : j < 0x2000) : placeAt s i ≠ placeAt s j := by
  unfold placeAt
  omega

theorem placeAt_lt {s : State} (hs : SizesOk s) (hc : s.cfg.cgb = true) (i : Nat) :
    placeAt s i < s.g1.vram.size := by
  obtain ⟨hsize, -⟩ := hs
  have := s.g1.vbk.isLt
  rw [hsize, if_pos hc, placeAt]
  omega

theorem holdsBlock_zero {s : State} (hm : MemoryOk s) : HoldsBlock s 0 s.g1.vram := by
  obtain ⟨⟨hwf, -⟩, -⟩ := memoryOk_iff.1 hm
  exact ⟨hwf, rfl, nofun, fun _ _ => rfl⟩

theorem holdsBlock_succ {s : State} {n : Nat} {m : Image} {x : Byte} (h : HoldsBlock s n m) (hn : n < 0x2000)
    (hp : placeAt s n < s.g1.vram.size) (hx : ¬ Forbidden (sourceAt s n) → x = dmaSourceByte s (sourceAt s n)) :
    HoldsBlock s (n + 1) (m.write (placeAt s n) x) where
  wf := Image.write_wf h.wf _ _
  size := (Image.write_size ..).trans h.size
  here i hi hf := by
    rcases Nat.lt_succ_iff_lt_or_eq.1 hi with hlt | rfl
    · rw [Image.read_write_other h.wf (placeAt_ne hlt hn), h.here i hlt hf]
    · rw [Image.read_write_same h.wf (h.size ▸ hp), hx hf]
  elsewhere y hy := by
    rw [Image.read_write_other h.wf (hy n (Nat.lt_succ_self n)),
      h.elsewhere y fun i hi => hy i (Nat.lt_succ_of_lt hi)]

theorem drawnBytes_succ (s : State) (n : Nat) :
    (drawnBytes s (n + 1)).length
      = (drawnBytes s n).length + if vdmaForbidden (s.g1.vdma.src + BitVec.ofNat 16 n) then 1 else 0 := by
  rw [drawnBytes, List.range_succ, List.filter_append, List.length_append, List.filter_singleton, ← drawnBytes]
  cases vdmaForbidden (s.g1.vdma.src + BitVec.ofNat 16 n) <;> rfl

/-- A byte stored at the running addresses, which move on (R466). -/
theorem vdmaStore_moved (s : State) (n : Nat) (m : Image) (x : Byte) (d : Nat) :
    vdmaStore x { moved s n m with draws := d }
      = { moved s (n + 1) (m.write (placeAt s n) x) with draws := d } := by
  have hsrc : s.g1.vdma.src + BitVec.ofNat 16 n + 1 = s.g1.vdma.src + BitVec.ofNat 16 (n + 1) := by
    rw [BitVec.add_assoc]
    exact congrArg _ (BitVec.ofNat_add n 1).symm
  have hdst : s.g1.vdma.dst + BitVec.ofNat 13 n + 1 = s.g1.vdma.dst + BitVec.ofNat 13 (n + 1) := by
    rw [BitVec.add_assoc]
    exact congrArg _ (BitVec.ofNat_add n 1).symm
  simp only [moved, ← hsrc, ← hdst, ← vramIndex_dst]
  rfl

/-- One byte more: a draw where its source is forbidden, else the source's. -/
theorem vdmaByte_moved {s : State} (h : MovesBlocks s) (n : Nat) (m : Image) :
    ∃ x, (¬ Forbidden (sourceAt s n) → x = dmaSourceByte s (sourceAt s n))
      ∧ vdmaByte (moved s n m) = moved s (n + 1) (m.write (placeAt s n) x) := by
  rw [← toNat_source]
  cases hf : vdmaForbidden (s.g1.vdma.src + BitVec.ofNat 16 n) with
  | true =>
    have hread : vdmaSrcRead (moved s n m).g1.vdma.src (moved s n m) = drawByte (moved s n m) := if_pos hf
    refine ⟨(drawByte (moved s n m)).1, fun hn => absurd (vdmaForbidden_iff.1 hf) hn, ?_⟩
    rw [vdmaByte, hread]
    refine (vdmaStore_moved s n m _ _).trans ?_
    rw [moved, drawnBytes_succ, hf]
    rfl
  | false =>
    have hn : ¬ Forbidden (s.g1.vdma.src + BitVec.ofNat 16 n).toNat := fun hn => by
      cases hf.symm.trans (vdmaForbidden_iff.2 hn)
    have hm : MovesBlocks (moved s n m) := ⟨h.gen, h.legal, h.colour, h.bank⟩
    have hread : vdmaSrcRead (moved s n m).g1.vdma.src (moved s n m)
        = (dmaSourceByte s (s.g1.vdma.src + BitVec.ofNat 16 n).toNat, moved s n m) :=
      (if_neg (by rw [show vdmaForbidden (moved s n m).g1.vdma.src = false from hf]; nofun)).trans
        (read1_dmaSource hm hn)
    refine ⟨_, fun _ => rfl, ?_⟩
    rw [vdmaByte, hread]
    refine (vdmaStore_moved s n m _ _).trans ?_
    rw [moved, drawnBytes_succ, hf]
    rfl

theorem vdmaBytes_succ (n : Nat) (s : State) : vdmaBytes (n + 1) s = vdmaByte (vdmaBytes n s) := by
  induction n generalizing s with
  | zero => rfl
  | succ n ih => exact ih (vdmaByte s)

theorem vdmaBytes_moved {s : State} (h : MovesBlocks s) (hm : MemoryOk s) (hs : SizesOk s) {n : Nat}
    (hn : n ≤ 0x2000) : ∃ m, vdmaBytes n s = moved s n m ∧ HoldsBlock s n m := by
  induction n with
  | zero =>
    refine ⟨s.g1.vram, ?_, holdsBlock_zero hm⟩
    simp only [moved, BitVec.add_zero]
    rfl
  | succ n ih =>
    obtain ⟨m, hmoved, hholds⟩ := ih (by omega)
    obtain ⟨x, hx, hbyte⟩ := vdmaByte_moved h n m
    exact ⟨m.write (placeAt s n) x, by rw [vdmaBytes_succ, hmoved, hbyte],
      holdsBlock_succ hholds (by omega) (placeAt_lt hs h.colour n) hx⟩

/-! ### After the block (R466) -/

/-- The channel after a block: its count and state follow, and a general transfer counts the next block. -/
theorem vdmaAfterBlock_eq (t : Timing) {d : Vdma} (h : d.state = .active) (hc : d.counter = 0) (hb : 1 ≤ d.blocks) :
    vdmaAfterBlock t d = { d with
      blocks := d.blocks - 1,
      state := if d.blocks = 1 then .inactive else if d.mode = .general then .active else .paused,
      status := if d.blocks = 1 then 0xFF else d.status,
      counter := if d.blocks ≠ 1 ∧ d.mode = .general then t.vdmaBlock else 0 } := by
  unfold vdmaAfterBlock
  by_cases h1 : d.blocks = 1
  · simp [h1, hc]
  · rw [if_neg (by omega)]
    cases d.mode <;> simp [h1, h, hc]

/-- The cycle in which the count runs out moves one block, where the other engine is Inactive. -/
theorem tick1_vdmaBlock {s : State} (g : s.cfg.gen = .gen1) (hc : s.cfg.cgb = true)
    (hv : s.g1.vdma.state = .active) (h1 : s.g1.vdma.counter = 1) (ho : s.g1.oamDma.state = .inactive) :
    tick1 s = .next (vdmaBlock (vdmaCount s)) := by
  have oam : oamTick1 s = s := by simp only [oamTick1, ho]
  rw [tick1_gen1 g, gen1Tick1, if_pos hc, oam, vdmaTick1, if_pos hv, if_pos (by rw [h1]; rfl)]

/-- Settles O42: 16 bytes one by one, and the channel after them. -/
theorem videoDmaMovesBlock : Obligations.VideoDmaMovesBlock := by
  intro s g hr hc hv h1 ho hm hs hb hblocks
  have h : MovesBlocks (vdmaCount s) := ⟨g, hr, hc, hb⟩
  obtain ⟨m, hmoved, hholds⟩ := vdmaBytes_moved h hm hs (n := 16) (by decide)
  refine ⟨m, drawnBytes s 16, fun i => ?_, List.nodup_range.filter _, ?_, hholds.here, hholds.elsewhere⟩
  · rw [drawnBytes, List.mem_filter, List.mem_range, vdmaForbidden_iff, toNat_source]
    rfl
  · have hcount : s.g1.vdma.counter - 1 = 0 := by omega
    have htick : exec (.tick 1) s = tick1 s := (exec_tick_of_nonneg (by decide) s).trans (ticks_one s)
    rw [htick, tick1_vdmaBlock g hc hv h1 ho, vdmaBlock, hmoved,
      vdmaAfterBlock_eq (d := (moved (vdmaCount s) 16 m).g1.vdma) _ hv hcount hblocks]
    rfl

end Sys2Proof.Machine
end

section
/-! PROOFS. The registers of the generation-2 DMA channels on the bus (30_encoding.md R180, 40_register.md
R202, R203, 47_dma_gen2.md R491, R492): which cell an address names, what a write stores in it, and what a
read of it gives. -/
namespace Sys2Proof.Machine

open Sys2Proof.Safety Sys2Proof.Claims

/-! ### Addresses of the registers (R491) -/

/-- The address of byte `i` of a channel's registers. -/
def regAddr (k : Chan) (i : Nat) : Word := dmaBase k + BitVec.ofNat 32 i

/-- An address of the registers names its channel and its cell, and lies in the I/O region. -/
theorem regAddr_decodes (k : Chan) {i : Nat} (hi : i < 12) :
    isDmaReg (regAddr k i) = true ∧ dmaChanOf (regAddr k i) = k ∧ dmaCellOf (regAddr k i) = cellAt i
      ∧ 0x04000000 ≤ (regAddr k i).toNat ∧ (regAddr k i).toNat < 0x04000400 := by
  have all : ∀ i : Fin 12, isDmaReg (regAddr k i) = true ∧ dmaChanOf (regAddr k i) = k
      ∧ dmaCellOf (regAddr k i) = cellAt i
      ∧ 0x04000000 ≤ (regAddr k i).toNat ∧ (regAddr k i).toNat < 0x04000400 := by
    cases k <;> decide
  exact all ⟨i, hi⟩

/-- The registers of a channel begin at a multiple of a word. -/
theorem align_regAddr (k : Chan) (w : Width) {i : Nat} (hi : i < 12) :
    align w (regAddr k i) = regAddr k (aligned w i) := by
  have all : ∀ i : Fin 12, align w (regAddr k i) = regAddr k (aligned w i) := by
    cases k <;> cases w <;> decide
  exact all ⟨i, hi⟩

theorem regAddr_odd (k : Chan) {i : Nat} (hi : i < 12) : (regAddr k i).getLsbD 0 = decide (i % 2 = 1) := by
  have all : ∀ i : Fin 12, (regAddr k i).getLsbD 0 = decide (i.val % 2 = 1) := by
    cases k <;> decide
  exact all ⟨i, hi⟩

theorem regAddr_add_two (k : Chan) (i : Nat) : regAddr k i + 2 = regAddr k (i + 2) := by
  rw [regAddr, regAddr, BitVec.add_assoc, BitVec.ofNat_add]
  rfl

theorem aligned_lt {w : Width} {i n : Nat} (hi : i < n) : aligned w i < n :=
  Nat.lt_of_le_of_lt (Nat.div_mul_le_self i w.bytes) hi

theorem aligned_b1 (i : Nat) : aligned .b1 i = i := by simp [aligned, Width.bytes]

/-- The two bytes of a halfword are of one cell. -/
theorem cellAt_aligned (i : Nat) : cellAt (aligned .b2 i) = cellAt i := by
  have h : aligned .b2 i / 2 = i / 2 := Nat.mul_div_cancel _ (by decide)
  rw [cellAt, h, cellAt]

theorem cellAt_control {i : Nat} (h : i / 2 = 5) : cellAt i = .cntH := by
  simp [cellAt, h]

theorem cellAt_ne_control {i : Nat} (hi : i < 12) (h : i / 2 ≠ 5) : cellAt i ≠ .cntH := by
  obtain h | h | h | h | h : i / 2 = 0 ∨ i / 2 = 1 ∨ i / 2 = 2 ∨ i / 2 = 3 ∨ i / 2 = 4 := by omega
  all_goals simp [cellAt, h]

theorem ioWrite2_regAddr (k : Chan) {i : Nat} (hi : i < 12) (d mask : Half) (s : State) :
    ioWrite2 (regAddr k i) d mask s = dmaCellWrite k (cellAt i) d mask s := by
  obtain ⟨hr, hk, hc, -⟩ := regAddr_decodes k hi
  rw [ioWrite2, if_pos hr, dmaRegWrite, hk, hc]

theorem ioRead2_regAddr (k : Chan) {i : Nat} (hi : i < 12) (s : State) :
    ioRead2 (regAddr k i) s = dmaCellRead k (cellAt i) s := by
  obtain ⟨hr, hk, hc, -⟩ := regAddr_decodes k hi
  rw [ioRead2, if_pos hr, dmaRegRead, hk, hc]

/-! ### Writes and reads by width (41_bus.md R222, R225) -/

/-- The data that a byte written at byte `i` of the registers gives its cell. -/
def laneData (i : Nat) (b : Byte) : Half := if i % 2 = 0 then 0#8 ++ b else b ++ 0#8

/-- Its byte mask (R203). -/
def laneMask (i : Nat) : Half := if i % 2 = 0 then 0x00FF else 0xFF00

/-- The data of a byte lies inside its byte mask (R204). -/
theorem laneData_inside (i : Nat) (b : Byte) : laneData i b &&& ~~~laneMask i = 0 := by
  have low : (0x00FF : Half) = 0#8 ++ BitVec.allOnes 8 := rfl
  have high : (0xFF00 : Half) = BitVec.allOnes 8 ++ 0#8 := rfl
  unfold laneData laneMask
  split
  · rw [low, BitVec.not_append, BitVec.and_append]
    simp
  · rw [high, BitVec.not_append, BitVec.and_append]
    simp

section
variable (m : Master) (k : Chan) {i : Nat} (hi : i < 12) (s : State)
include hi

theorem write2_reg (w : Width) (v : Word) :
    write2 m (regAddr k i) w v s = compose16W ioWrite2 (regAddr k (aligned w i)) w v s := by
  obtain ⟨-, -, -, h1, h2⟩ := regAddr_decodes k hi
  rw [write2_io h1 h2, align_regAddr k w hi]

theorem read2_reg (kind : AccessKind) (w : Width) :
    read2 m kind (regAddr k i) w s = compose16 ioRead2 (regAddr k (aligned w i)) w s := by
  obtain ⟨-, -, -, h1, h2⟩ := regAddr_decodes k hi
  rw [read2_io h1 h2, align_regAddr k w hi]

theorem write2_reg_b1 (v : Word) :
    write2 m (regAddr k i) .b1 v s
      = dmaCellWrite k (cellAt i) (laneData i (v.setWidth 8)) (laneMask i) s := by
  have hu : regAddr k i &&& 0xFFFFFFFE = regAddr k (aligned .b2 i) := align_regAddr k .b2 hi
  rw [write2_reg m k hi, aligned_b1, compose16W, hu, ioWrite2_regAddr k (aligned_lt hi), cellAt_aligned, byteData,
    byteMask, regAddr_odd k hi, laneData, laneMask]
  rcases Nat.mod_two_eq_zero_or_one i with h | h <;> rw [h] <;> rfl

theorem write2_reg_b2 (v : Word) :
    write2 m (regAddr k i) .b2 v s = dmaCellWrite k (cellAt i) (v.setWidth 16) 0xFFFF s := by
  rw [write2_reg m k hi, compose16W, ioWrite2_regAddr k (aligned_lt hi), cellAt_aligned]

/-- The lower cell first (R225). -/
theorem write2_reg_b4 (v : Word) :
    write2 m (regAddr k i) .b4 v s
      = bindR (dmaCellWrite k (cellAt (i / 4 * 4)) (v.setWidth 16) 0xFFFF s)
          (dmaCellWrite k (cellAt (i / 4 * 4 + 2)) (v.extractLsb' 16 16) 0xFFFF) := by
  have upper : ioWrite2 (regAddr k (i / 4 * 4 + 2)) (v.extractLsb' 16 16) 0xFFFF
      = dmaCellWrite k (cellAt (i / 4 * 4 + 2)) (v.extractLsb' 16 16) 0xFFFF :=
    funext fun s => ioWrite2_regAddr k (by omega) _ _ s
  rw [write2_reg m k hi, compose16W, ioWrite2_regAddr k (aligned_lt hi), regAddr_add_two]
  exact congrArg (bindR _) upper

theorem read2_reg_b1 (kind : AccessKind) :
    read2 m kind (regAddr k i) .b1 s
      = (byte ((dmaCellRead k (cellAt i) s).1.extractLsb' (8 * (i % 2)) 8), (dmaCellRead k (cellAt i) s).2) := by
  have hu : regAddr k i &&& 0xFFFFFFFE = regAddr k (aligned .b2 i) := align_regAddr k .b2 hi
  have hodd : (regAddr k i).toNat % 2 = i % 2 := by
    have h := regAddr_odd k hi
    rw [getLsbD_zero_eq_odd, decide_eq_decide] at h
    omega
  rw [read2_reg m k hi, aligned_b1, compose16, hu, ioRead2_regAddr k (aligned_lt hi), cellAt_aligned]
  exact congrArg (fun x => (byte x, _)) ((laneByte_eq_extract _ _).trans (by rw [hodd]))

theorem read2_reg_b2 (kind : AccessKind) :
    read2 m kind (regAddr k i) .b2 s
      = ((dmaCellRead k (cellAt i) s).1.setWidth 32, (dmaCellRead k (cellAt i) s).2) := by
  rw [read2_reg m k hi, compose16, ioRead2_regAddr k (aligned_lt hi), cellAt_aligned]

/-- The lower cell first (R222). -/
theorem read2_reg_b4 (kind : AccessKind) :
    let low := dmaCellRead k (cellAt (i / 4 * 4)) s
    let high := dmaCellRead k (cellAt (i / 4 * 4 + 2)) low.2
    read2 m kind (regAddr k i) .b4 s = (high.1 ++ low.1, high.2) := by
  have h4 : aligned .b4 i = i / 4 * 4 := rfl
  rw [read2_reg m k hi, compose16, regAddr_add_two, ioRead2_regAddr k (aligned_lt hi), h4,
    ioRead2_regAddr k (by omega)]

end

/-! ### What a write stores (40_register.md R202, R203) -/

/-- The write mask of a cell (R51). -/
def cellMask (k : Chan) : DmaCell → Half
  | .sadL => 0xFFFF
  | .sadH => sadHMask k
  | .dadL => 0xFFFF
  | .dadH => dadHMask k
  | .cntL => cntLMask k
  | .cntH => cntHMask k

/-- A register with the masks of R51 stores the data under the byte mask, cut to its bits. -/
theorem stored_eq_merged {r : Reg16} {rm wm d mask : Half} (hr : cellOk r rm wm) (hd : d &&& ~~~mask = 0) :
    r.stored d mask = merged r.value wm d mask := by
  obtain ⟨-, hwm, hv⟩ := hr
  rw [Reg16.stored, merged, hwm]
  ext i hi
  have hdata : d[i] = true → mask[i] = true := by simpa [hi] using congrArg (·.getLsbD i) hd
  have hbit : r.value[i] = true → wm[i] = true := by simpa [hi] using congrArg (·.getLsbD i) hv
  cases hm : mask[i] <;> cases hw : wm[i] <;> simp_all

theorem and_not_whole (d : Half) : d &&& ~~~(0xFFFF : Half) = 0 := BitVec.and_zero

theorem merged_whole (x wm d : Half) : merged x wm d 0xFFFF = d &&& wm := by
  have whole : (0xFFFF : Half) = BitVec.allOnes 16 := rfl
  rw [merged, whole, BitVec.not_allOnes, BitVec.and_zero, BitVec.zero_or, BitVec.and_allOnes]

theorem cell_stored {k : Chan} {c : DmaChannel} (hc : cellsOk k c) (x : DmaCell) {d mask : Half}
    (hd : d &&& ~~~mask = 0) :
    (c.cell x).stored d mask = merged (c.cell x).value (cellMask k x) d mask := by
  obtain ⟨sadL, sadH, dadL, dadH, cntL, cntH⟩ := hc
  cases x with
  | sadL => exact stored_eq_merged sadL hd
  | sadH => exact stored_eq_merged sadH hd
  | dadL => exact stored_eq_merged dadL hd
  | dadH => exact stored_eq_merged dadH hd
  | cntL => exact stored_eq_merged cntL hd
  | cntH => exact stored_eq_merged cntH hd

theorem withChan_eq_setChan (s : State) (k : Chan) (c : DmaChannel) : withChan s k c = setChan k c s := rfl

/-- A channel with the value of a cell replaced. -/
def withCell (c : DmaChannel) (x : DmaCell) (v : Half) : DmaChannel :=
  c.setCell x { c.cell x with value := v }

theorem enableEdge_same (k : Chan) (s : State) : enableEdge k (enableBit (chan s k).cntH.value) s = s := by
  rw [enableEdge, if_neg fun h => absurd (h.1.symm.trans h.2) (by decide),
    if_neg fun h => absurd (h.1.symm.trans h.2) (by decide)]

/-- A store that does not change the enable bit has no other effect (R491). -/
theorem dmaCellWrite_of_enable_same {k : Chan} {x : DmaCell} {d mask : Half} {s : State}
    (hd : d &&& ~~~mask = 0)
    (he : enableBit (withCell (chan s k) x (((chan s k).cell x).stored d mask)).cntH.value
      = enableBit (chan s k).cntH.value) :
    dmaCellWrite k x d mask s
      = .next (withChan s k (withCell (chan s k) x (((chan s k).cell x).stored d mask))) := by
  have hrefusal : regRefusal k x (chan s k) d mask = none := by
    refine if_neg fun ⟨hx, hold, hnew⟩ => ?_
    subst hx
    rw [← he] at hold
    exact absurd (hold.symm.trans hnew) (by decide)
  have hnew : enableBit (chan (withChan s k (withCell (chan s k) x (((chan s k).cell x).stored d mask))) k).cntH.value
      = enableBit (chan s k).cntH.value := by
    rw [withChan_eq_setChan, chan_setChan_same]
    exact he
  rw [dmaCellWrite, hrefusal]
  simp only [dmaRegStore, Reg16.write, if_pos hd, bindR_next]
  rw [← hnew]
  exact congrArg _ (enableEdge_same ..)

/-- A store depends on what the register becomes only. -/
theorem dmaCellWrite_congr {k : Chan} {x : DmaCell} {d d' mask mask' : Half} {s : State}
    (hd : d &&& ~~~mask = 0) (hd' : d' &&& ~~~mask' = 0)
    (h : ((chan s k).cell x).stored d mask = ((chan s k).cell x).stored d' mask') :
    dmaCellWrite k x d mask s = dmaCellWrite k x d' mask' s := by
  have hrefusal : regRefusal k x (chan s k) d mask = regRefusal k x (chan s k) d' mask' := by
    unfold regRefusal
    by_cases hx : x = .cntH
    · subst hx
      have h : (chan s k).cntH.stored d mask = (chan s k).cntH.stored d' mask' := h
      rw [h]
    · rw [if_neg fun hc => hx hc.1, if_neg fun hc => hx hc.1]
  simp only [dmaCellWrite, hrefusal, dmaRegStore, Reg16.write, if_pos hd, if_pos hd', h]

/-! ### The cells of addresses and counts -/

theorem cellWritten_eq (k : Chan) (c : DmaChannel) {i : Nat} (hi : i < 12) (h5 : i / 2 ≠ 5) (d mask : Half) :
    withCell c (cellAt i) (merged (c.cell (cellAt i)).value (cellMask k (cellAt i)) d mask)
        = cellWritten k c (i / 2) d mask
      ∧ (cellWritten k c (i / 2) d mask).cntH = c.cntH := by
  obtain h | h | h | h | h : i / 2 = 0 ∨ i / 2 = 1 ∨ i / 2 = 2 ∨ i / 2 = 3 ∨ i / 2 = 4 := by omega
  all_goals
    simp only [cellAt, h]
    exact ⟨rfl, rfl⟩

theorem dmaCellWrite_cell {k : Chan} {i : Nat} {d mask : Half} {s : State} (hs : Dma2Ok s) (hi : i < 12)
    (h5 : i / 2 ≠ 5) (hd : d &&& ~~~mask = 0) :
    dmaCellWrite k (cellAt i) d mask s = .next (withChan s k (cellWritten k (chan s k) (i / 2) d mask)) := by
  obtain ⟨hcell, hcntH⟩ := cellWritten_eq k (chan s k) hi h5 d mask
  rw [dmaCellWrite_of_enable_same hd] <;> rw [cell_stored (hs k).1 _ hd, hcell]
  rw [hcntH]

/-- A store of an address or count cell keeps the cells as R51 says. -/
theorem dma2Ok_cellWritten {k : Chan} {i : Nat} {d mask : Half} {s : State} (g : s.cfg.gen = .gen2)
    (hs : Dma2Ok s) (hi : i < 12) (h5 : i / 2 ≠ 5) (hd : d &&& ~~~mask = 0) :
    Dma2Ok (withChan s k (cellWritten k (chan s k) (i / 2) d mask)) :=
  moves_keep (fun _ _ => Move.dma2Ok) (dmaCellWrite_moves g (dmaCellWrite_cell hs hi h5 hd)) hs

/-! ### The calls (41_bus.md R220, R223) -/

section
variable {s : State} {m : Master} (h : Open2By s m) (hs : Dma2Ok s) (k : Chan) {i : Nat} (hi : i < 12)
include h hs hi

theorem callWrite_reg_b1 (h5 : i / 2 ≠ 5) (v : Word) :
    callWrite m (regAddr k i) .b1 v s
      = .next (withChan s k (cellWritten k (chan s k) (i / 2) (laneData i (v.setWidth 8)) (laneMask i))) := by
  rw [callWrite_open2 h, write2_reg_b1 m k hi, dmaCellWrite_cell hs hi h5 (laneData_inside _ _)]

theorem callWrite_reg_b2 (h5 : i / 2 ≠ 5) (v : Word) :
    callWrite m (regAddr k i) .b2 v s
      = .next (withChan s k (cellWritten k (chan s k) (i / 2) (v.setWidth 16) 0xFFFF)) := by
  rw [callWrite_open2 h, write2_reg_b2 m k hi, dmaCellWrite_cell hs hi h5 (and_not_whole _)]

/-- The first cell of a word, which is none of control. -/
theorem callWrite_reg_b4 (v : Word) :
    callWrite m (regAddr k i) .b4 v s
      = dmaCellWrite k (cellAt (i / 4 * 4 + 2)) (v.extractLsb' 16 16) 0xFFFF
          (withChan s k (cellWritten k (chan s k) (i / 4 * 2) (v.setWidth 16) 0xFFFF)) := by
  have h2 : i / 4 * 4 / 2 = i / 4 * 2 := by omega
  rw [callWrite_open2 h, write2_reg_b4 m k hi, dmaCellWrite_cell hs (by omega) (by omega) (and_not_whole _), h2,
    bindR_next]

theorem callWrite_reg_b4_address (h4 : i / 4 ≠ 2) (v : Word) :
    callWrite m (regAddr k i) .b4 v s
      = .next (withChan s k (cellWritten k
          (cellWritten k (chan s k) (i / 4 * 2) (v.setWidth 16) 0xFFFF) (i / 4 * 2 + 1)
          (v.extractLsb' 16 16) 0xFFFF)) := by
  obtain ⟨g, -⟩ := id h
  have h2 : i / 4 * 4 / 2 = i / 4 * 2 := by omega
  have h3 : (i / 4 * 4 + 2) / 2 = i / 4 * 2 + 1 := by omega
  have hlow := dma2Ok_cellWritten (k := k) (i := i / 4 * 4) g hs (by omega) (by omega) (and_not_whole (v.setWidth 16))
  rw [h2] at hlow
  rw [callWrite_reg_b4 h hs k hi, dmaCellWrite_cell hlow (by omega) (by omega) (and_not_whole _), h3]
  simp only [withChan_eq_setChan, chan_setChan_same, setChan_setChan]

end

/-- A halfword written to the control register. -/
theorem callWrite_control {s : State} {m : Master} (h : Open2By s m) (k : Chan) (v : Word) :
    callWrite m (regAddr k 10) .b2 v s = dmaCellWrite k .cntH (v.setWidth 16) 0xFFFF s := by
  rw [callWrite_open2 h, write2_reg_b2 m k (by decide)]
  rfl

end Sys2Proof.Machine
end

section
/-! PROOFS. The registers of the generation-2 DMA channels by their rows and by the bus (47_dma_gen2.md R491,
R492): every width, every address, every master. -/
namespace Sys2Proof.Machine

open Sys2Proof.Safety Sys2Proof.Claims Sys2Proof.Laws.RoundTrip

/-! ### The rows as calls (30_encoding.md R180) -/

theorem exec_sadRow (k : Chan) (w : Width) (v : Word) (s : State) :
    exec (sadRow k w v) s = callWrite .cpu (regAddr k 0) w v s := by cases k <;> rfl

theorem exec_dadRow (k : Chan) (w : Width) (v : Word) (s : State) :
    exec (dadRow k w v) s = callWrite .cpu (regAddr k 4) w v s := by cases k <;> rfl

theorem exec_cntLRow (k : Chan) (w : Width) (v : Word) (s : State) :
    exec (cntLRow k w v) s = callWrite .cpu (regAddr k 8) w v s := by cases k <;> rfl

theorem exec_cntHRow (k : Chan) (w : Width) (v : Word) (s : State) :
    exec (cntHRow k w v) s = callWrite .cpu (regAddr k 10) w v s := by cases k <;> rfl

theorem exec_dmaReadRow (k : Chan) (off : Fin 12) (w : Width) (s : State) :
    exec (dmaReadRow k off w) s = callRead .cpu .data (regAddr k off) w s := by cases k <;> rfl

theorem open2By_cpu {s : State} (h : Open2 s) : Open2By s .cpu := by
  obtain ⟨g, hr, hs⟩ := h
  exact ⟨g, hr, .inl ⟨rfl, hs⟩⟩

/-- Whether an access is let through does not depend on the registers. -/
theorem open2By_withChan {s : State} {m : Master} {k : Chan} {c : DmaChannel} (h : Open2By s m)
    (hc : c.state = (chan s k).state) : Open2By (withChan s k c) m := by
  have same (j : Chan) : (chan (withChan s k c) j).state = (chan s j).state := by
    rw [withChan_eq_setChan]
    by_cases hj : j = k
    · rw [hj, chan_setChan_same, hc]
    · rw [chan_setChan_other j k c s hj]
  obtain ⟨g, hr, hm⟩ := h
  refine ⟨g, hr, hm.imp_left fun ⟨hcpu, hst⟩ => ⟨hcpu, fun hst' => hst ?_⟩⟩
  obtain ⟨-, j, hj⟩ | ⟨g1, -⟩ := hst'
  · exact .inl ⟨g, j, same j ▸ hj⟩
  · exact absurd (g.symm.trans g1) (by decide)

theorem cellWritten_state (k : Chan) (c : DmaChannel) (i : Nat) (d mask : Half) :
    (cellWritten k c i d mask).state = c.state := by
  unfold cellWritten; split <;> rfl

section
variable {s : State} {m : Master} (h : Open2By s m) (hs : Dma2Ok s) (k : Chan) {i : Nat} (hi : i < 12)
include h hs hi

/-- Four bytes at the count and the control: the count is stored, then the control written. -/
theorem callWrite_reg_b4_count (h4 : i / 4 = 2) (v : Word) :
    callWrite m (regAddr k i) .b4 v s
      = callWrite m (regAddr k 10) .b2 ((v.extractLsb' 16 16).setWidth 32)
          (withChan s k (cellWritten k (chan s k) 4 (v.setWidth 16) 0xFFFF)) := by
  have hcut : ((v.extractLsb' 16 16).setWidth 32 : Word).setWidth 16 = v.extractLsb' 16 16 :=
    BitVec.setWidth_setWidth_of_le _ (by decide)
  rw [callWrite_reg_b4 h hs k hi, callWrite_control (open2By_withChan h (cellWritten_state ..)), hcut, h4]
  rfl

end

/-! ### A byte of the control register -/

/-- The low byte of a write, cut to the write mask. -/
theorem merged_lowByte (x wm : Half) (v : Word) :
    merged x wm (0#8 ++ v.setWidth 8) 0x00FF = (x &&& 0xFF00) ||| (v.setWidth 16 &&& 0x00FF &&& wm) := by
  have hd : ((0#8 ++ v.setWidth 8 : Half) &&& 0x00FF) = v.setWidth 16 &&& 0x00FF := by
    apply BitVec.eq_of_toNat_eq
    have mask (y : Half) : (y &&& 0x00FF).toNat = y.toNat % 256 := by
      rw [BitVec.toNat_and]
      exact Nat.and_two_pow_sub_one_eq_mod _ 8
    rw [mask, mask, append_toNat, BitVec.toNat_setWidth, BitVec.toNat_setWidth, BitVec.toNat_ofNat]
    omega
  rw [merged, hd]
  rfl

/-- The register after a byte is the one after the halfword with the other byte as it was. -/
theorem stored_byte_eq_halfword {r : Reg16} {rm wm d mask : Half} (hr : cellOk r rm wm)
    (hd : d &&& ~~~mask = 0) : r.stored d mask = r.stored (merged r.value 0xFFFF d mask) 0xFFFF := by
  rw [stored_eq_merged hr hd, stored_eq_merged hr (and_not_whole _), merged_whole, merged, merged]
  obtain ⟨-, -, hv⟩ := hr
  ext i hi
  have hbit : r.value[i] = true → wm[i] = true := by simpa [hi] using congrArg (·.getLsbD i) hv
  have hone : (0xFFFF : Half)[i] = true := by
    have whole : (0xFFFF : Half) = BitVec.allOnes 16 := rfl
    rw [whole, BitVec.getElem_allOnes]
  cases hw : wm[i] <;> simp_all

/-- A byte of the low half has no edge of the enable bit. -/
theorem enableBit_stored_lowByte (r : Reg16) {d : Half} (hd : d &&& ~~~(0x00FF : Half) = 0) :
    enableBit (r.stored d 0x00FF) = enableBit r.value := by
  have h15 : d.getLsbD 15 = false := by simpa using congrArg (·.getLsbD 15) hd
  rw [enableBit, enableBit, Reg16.stored, BitVec.getLsbD_or, BitVec.getLsbD_and, BitVec.getLsbD_and, h15]
  simp

/-- A byte written to the control register is the halfword that has the other byte as it was. -/
theorem callWrite_control_byte {s : State} {m : Master} (h : Open2By s m) (hs : Dma2Ok s) (k : Chan) {i : Nat}
    (hi : i < 12) (h5 : i / 2 = 5) (v : Word) :
    callWrite m (regAddr k i) .b1 v s = callWrite m (regAddr k 10) .b2
      ((merged (chan s k).cntH.value 0xFFFF (laneData i (v.setWidth 8)) (laneMask i)).setWidth 32) s := by
  obtain ⟨⟨-, -, -, -, -, hcell⟩, -⟩ := hs k
  have hd := laneData_inside i (v.setWidth 8)
  rw [callWrite_control h, BitVec.setWidth_setWidth_of_le _ (by decide), BitVec.setWidth_eq, callWrite_open2 h,
    write2_reg_b1 m k hi, cellAt_control h5]
  exact dmaCellWrite_congr hd (and_not_whole _) (stored_byte_eq_halfword hcell hd)

/-! ### Reads (R492) -/

theorem dmaCellRead_control {s : State} (hs : Dma2Ok s) (k : Chan) :
    dmaCellRead k .cntH s = ((chan s k).cntH.value, s) := by
  obtain ⟨⟨-, -, -, -, -, hrm, -, hv⟩, -⟩ := hs k
  have hread : (chan s k).cntH.read = (chan s k).cntH.value := by
    rw [Reg16.read, hrm]
    ext i hi
    have hbit : (chan s k).cntH.value[i] = true → (cntHMask k)[i] = true := by
      simpa [hi] using congrArg (·.getLsbD i) hv
    cases hw : (cntHMask k)[i] <;> simp_all
  rw [dmaCellRead, if_pos rfl, hread]

theorem dmaCellRead_other {x : DmaCell} (hx : x ≠ .cntH) (k : Chan) (s : State) :
    dmaCellRead k x s = drawHalf s := if_neg hx

/-- Every read at the addresses of a channel's registers. -/
theorem readsChannel_of {s : State} {m : Master} {kind : AccessKind} {k : Chan} {rd : Fin 12 → Width → Instr}
    (h : Open2By s m) (hs : Dma2Ok s)
    (hrd : ∀ off w, exec (rd off w) s = callRead m kind (regAddr k off) w s) :
    ReadsChannel s (chan s k) rd := by
  intro off
  have hoff := off.isLt
  have read (w : Width) : exec (rd off w) s = .next (returning (read2 m kind (regAddr k off) w s)) :=
    (hrd off w).trans (callRead_open2 h ..)
  rw [read, read, read, read2_reg_b1 m k hoff, read2_reg_b2 m k hoff, read2_reg_b4 m k hoff]
  refine ⟨fun h5 => ?_, fun h4 => ?_, fun h5 => ?_, fun h4 => ?_⟩
  · rw [cellAt_control h5, dmaCellRead_control hs]
    exact ⟨rfl, rfl⟩
  · have count : dmaCellRead k (cellAt 8) s = drawHalf s := dmaCellRead_other (by decide) k s
    have control : dmaCellRead k (cellAt 10) (drawHalf s).2 = ((chan s k).cntH.value, (drawHalf s).2) :=
      dmaCellRead_control (s := (drawHalf s).2) hs k
    rw [h4, count, control]
    exact ⟨_, rfl⟩
  · rw [dmaCellRead_other (cellAt_ne_control hoff h5)]
    exact ⟨⟨_, rfl⟩, _, rfl⟩
  · rw [dmaCellRead_other (cellAt_ne_control (by omega) (by omega)),
      dmaCellRead_other (cellAt_ne_control (by omega) (by omega))]
    exact ⟨_, rfl⟩

/-! ### The statement -/

/-- Settles O47: each access of the registers is one of a cell, or of two in order. -/
theorem dmaRegisterCells : Obligations.DmaRegisterCells := by
  refine ⟨fun s k v h hs => ?_, fun s m kind k off v h hs => ?_⟩
  · have hcpu := open2By_cpu h
    intro c lowByte high
    have low (x : Half) : merged x 0xFFFF (0#8 ++ v.setWidth 8) 0x00FF = lowByte x := by
      rw [merged_lowByte]
      exact congrArg _ BitVec.and_allOnes
    have lowCount (x : Half) : merged x (cntLMask k) (0#8 ++ v.setWidth 8) 0x00FF = lowByte x := by
      have hmask : (0x00FF &&& cntLMask k : Half) = 0x00FF := by cases k <;> rfl
      rw [merged_lowByte, BitVec.and_assoc, hmask]
    have whole (x d : Half) : merged x 0xFFFF d 0xFFFF = d := (merged_whole ..).trans BitVec.and_allOnes
    have put (u : Half → DmaChannel) {x y : Half} (e : x = y) :
        (.next (withChan s k (u x)) : Res State) = .next (withChan s k (u y)) := e ▸ rfl
    have put2 (u : Half → Half → DmaChannel) {x y z t : Half} (e : x = y) (f : z = t) :
        (.next (withChan s k (u x z)) : Res State) = .next (withChan s k (u y t)) := e ▸ f ▸ rfl
    rw [exec_sadRow, exec_sadRow, exec_sadRow, exec_dadRow, exec_dadRow, exec_dadRow, exec_cntLRow, exec_cntLRow,
      exec_cntLRow, exec_cntHRow, exec_cntHRow, exec_cntHRow]
    refine ⟨?_, ?_, ?_, ?_, ?_, ?_, ?_, ?_, ?_, ?_, ?_, readsChannel_of hcpu hs (exec_dmaReadRow k · · s)⟩
    · exact (callWrite_reg_b1 hcpu hs k (by decide) (by decide) v).trans
        (put (fun x => { c with sadL.value := x }) (low _))
    · exact (callWrite_reg_b2 hcpu hs k (by decide) (by decide) v).trans
        (put (fun x => { c with sadL.value := x }) (whole ..))
    · exact (callWrite_reg_b4_address hcpu hs k (by decide) (by decide) v).trans
        (put2 (fun x y => { c with sadL.value := x, sadH.value := y }) (whole ..) (merged_whole ..))
    · exact (callWrite_reg_b1 hcpu hs k (by decide) (by decide) v).trans
        (put (fun x => { c with dadL.value := x }) (low _))
    · exact (callWrite_reg_b2 hcpu hs k (by decide) (by decide) v).trans
        (put (fun x => { c with dadL.value := x }) (whole ..))
    · exact (callWrite_reg_b4_address hcpu hs k (by decide) (by decide) v).trans
        (put2 (fun x y => { c with dadL.value := x, dadH.value := y }) (whole ..) (merged_whole ..))
    · exact (callWrite_reg_b1 hcpu hs k (by decide) (by decide) v).trans
        (put (fun x => { c with cntL.value := x }) (lowCount _))
    · exact (callWrite_reg_b2 hcpu hs k (by decide) (by decide) v).trans
        (put (fun x => { c with cntL.value := x }) (merged_whole ..))
    · refine (callWrite_reg_b4_count hcpu hs k (by decide) (by decide) v).trans ?_
      exact congrArg (fun x => callWrite .cpu (regAddr k 10) .b2 (high.setWidth 32)
        (withChan s k { c with cntL.value := x })) (merged_whole ..)
    · have hd := laneData_inside 0 (v.setWidth 8)
      rw [callWrite_open2 hcpu, write2_reg_b1 .cpu k (by decide)]
      refine (dmaCellWrite_of_enable_same (x := .cntH) hd (enableBit_stored_lowByte _ hd)).trans ?_
      refine put (fun x => { c with cntH.value := x }) ((cell_stored (hs k).1 .cntH hd).trans ?_)
      exact merged_lowByte ..
    · rw [callWrite_reg_b4_count hcpu hs k (by decide) (by decide),
        callWrite_reg_b4_count hcpu hs k (by decide) (by decide)]
  · have hoff := off.isLt
    intro c adr i h16 b high full
    have hb : (b.setWidth 32 : Word).setWidth 8 = b := BitVec.setWidth_setWidth_of_le b (by decide)
    have hh : (h16.setWidth 32 : Word).setWidth 16 = h16 := BitVec.setWidth_setWidth_of_le h16 (by decide)
    have row8 : exec (.busWrite8 m (adr i) b) s = callWrite m (regAddr k i) .b1 (b.setWidth 32) s := rfl
    have row16 : exec (.busWrite16 m (adr i) h16) s = callWrite m (regAddr k i) .b2 (h16.setWidth 32) s := rfl
    have row32 : exec (.busWrite32 m (adr i) v) s = callWrite m (regAddr k i) .b4 v s := rfl
    rw [row8, row16, row32]
    refine ⟨fun h5 => ⟨?_, ?_⟩, fun h5 => ?_, fun h4 => ?_, fun h4 => ?_,
      readsChannel_of h hs fun o w => exec_readRow w m kind (adr o) s⟩
    · rw [callWrite_reg_b2 h hs k hoff h5, hh]
    · rw [callWrite_reg_b1 h hs k hoff h5, hb, laneData, laneMask]
      split <;> rfl
    · have lanes : (if i % 2 = 0 then merged c.cntH.value 0xFFFF (0#8 ++ b) 0x00FF
          else merged c.cntH.value 0xFFFF (b ++ 0#8) 0xFF00)
          = merged c.cntH.value 0xFFFF (laneData i b) (laneMask i) := by
        rw [laneData, laneMask]
        split <;> rfl
      rw [lanes, callWrite_control_byte h hs k hoff h5, hb]
      rfl
    · exact callWrite_reg_b4_address h hs k hoff h4 v
    · exact callWrite_reg_b4_count h hs k hoff h4 v

end Sys2Proof.Machine
end

section
/-! PROOFS. A halfword written to the control register of a generation-2 DMA channel (47_dma_gen2.md R491, R494,
R496, R499, R508): the edges of its enable bit. -/
namespace Sys2Proof.Machine

open Sys2Proof.Safety Sys2Proof.Claims Sys2Proof.Laws.RoundTrip

/-! ### The refusals (R499) -/

theorem field_timing_iff (h : Half) (n : Nat) (hn : n < 4) : field h 12 2 = n ↔ timing h = BitVec.ofNat 2 n := by
  rw [field_timing, ← BitVec.toNat_inj, BitVec.toNat_ofNat, Nat.mod_eq_of_lt hn]

theorem field_srcCtl_iff (h : Half) : field h 7 2 = 3 ↔ srcCtl h = 3 := by
  rw [field_eq_extract, ← BitVec.toNat_inj]
  rfl

theorem sourceOf_lt (k : Chan) (c : DmaChannel) : sourceOf k c < 2 ^ 28 :=
  Nat.lt_of_lt_of_le (Nat.mod_lt _ (by split <;> decide)) (by split <;> decide)

theorem destOf_lt (k : Chan) (c : DmaChannel) : destOf k c < 2 ^ 28 :=
  Nat.lt_of_lt_of_le (Nat.mod_lt _ (by split <;> decide)) (by split <;> decide)

theorem isFifo_destOf (k : Chan) (c : DmaChannel) :
    isFifo (c.dad &&& dstMask k) = true ↔ destOf k c = 0x040000A0 ∨ destOf k c = 0x040000A4 := by
  rw [dad_and_dstMask, isFifo, Bool.or_eq_true, beq_iff_eq, beq_iff_eq, ← BitVec.toNat_inj, ← BitVec.toNat_inj,
    BitVec.toNat_ofNat, Nat.mod_eq_of_lt (destOf_lt k c)]
  rfl

/-- An enabling value is refused by the reason of one of its broken conditions, and by none where it breaks
none. -/
theorem enableRefusal_spec (k : Chan) (c : DmaChannel) (h : Half) :
    (∀ r, enableRefusal k (c.dad &&& dstMask k) h = some r → Refused499 k c h r)
      ∧ (enableRefusal k (c.dad &&& dstMask k) h = none → ¬ ∃ r, Refused499 k c h r) := by
  have hdrq : drqBit h = true ↔ field h 11 1 = 1 := (field_one_iff h 11).symm
  have hfifo : isFifo (c.dad &&& dstMask k) = false ↔ ¬ (destOf k c = 0x040000A0 ∨ destOf k c = 0x040000A4) := by
    rw [← isFifo_destOf, Bool.not_eq_true]
  have inner (h3 : timing h = 3) (hk : ¬ (timing h = 3 ∧ (k = .c0 ∨ k = .c3))) : k = .c1 ∨ k = .c2 := by
    cases k <;> simp_all
  simp only [enableRefusal, Refused499, field_srcCtl_iff, field_timing_iff h 3 (by decide), hdrq, hfifo]
  split_ifs with h1 h2 h3 h4
  · exact ⟨fun _ e => .inl ⟨h1, (Option.some.inj e).symm⟩, nofun⟩
  · exact ⟨fun _ e => .inr (.inl ⟨h2.1, h2.2, (Option.some.inj e).symm⟩), nofun⟩
  · exact ⟨fun _ e => .inr (.inr (.inl ⟨h3.1, h3.2, (Option.some.inj e).symm⟩)), nofun⟩
  · exact ⟨fun _ e => .inr (.inr (.inr ⟨h4.1, inner h4.1 h3, h4.2, (Option.some.inj e).symm⟩)), nofun⟩
  · refine ⟨nofun, fun _ => ?_⟩
    rintro ⟨r, ⟨e1, -⟩ | ⟨e2, e2', -⟩ | ⟨e3, e3', -⟩ | ⟨e4, -, e4', -⟩⟩
    exacts [h1 e1, h2 ⟨e2, e2'⟩, h3 ⟨e3, e3'⟩, h4 ⟨e4, e4'⟩]

/-! ### A channel that is enabled (R494, R496) -/

/-- FIFO mode is special timing, of a channel that may have it. -/
theorem fifoMode_eq {k : Chan} {c : DmaChannel} {h : Half} (hn : ¬ ∃ r, Refused499 k c h r) :
    fifoMode k h = decide (field h 12 2 = 3) := by
  rw [fifoMode]
  by_cases h3 : field h 12 2 = 3
  · have hk : k = .c1 ∨ k = .c2 := by
      cases k with
      | c0 => exact absurd ⟨_, .inr (.inr (.inl ⟨h3, .inl rfl, rfl⟩))⟩ hn
      | c1 => exact .inl rfl
      | c2 => exact .inr rfl
      | c3 => exact absurd ⟨_, .inr (.inr (.inl ⟨h3, .inr rfl, rfl⟩))⟩ hn
    have ht : timing h = 3 := (field_timing_iff h 3 (by decide)).1 h3
    rw [ht, decide_eq_true h3]
    obtain rfl | rfl := hk <;> rfl
  · have ht : timing h ≠ 3 := mt (field_timing_iff h 3 (by decide)).2 h3
    rw [decide_eq_false h3, beq_eq_false_iff_ne.2 ht, Bool.false_and]

theorem sad_and_srcMask (k : Chan) (c : DmaChannel) : c.sad &&& srcMask k = BitVec.ofNat 28 (sourceOf k c) := by
  obtain ⟨hs, hm⟩ := srcMask_isMaskOf k
  have := c.sadL.value.isLt
  apply BitVec.eq_of_toNat_eq
  rw [hm, DmaChannel.sad, append_toNat, BitVec.toNat_setWidth, BitVec.toNat_ofNat, sourceOf]
  change _ % sourceSpace k = _ % sourceSpace k % _
  rcases hs with hs | hs <;> rw [hs] <;> omega

/-- A channel with another control value. -/
def withControl (c : DmaChannel) (h : Half) : DmaChannel := { c with cntH.value := h }

theorem dmaLatch_eq {k : Chan} {c : DmaChannel} {h : Half} (hn : ¬ ∃ r, Refused499 k c h r) :
    dmaLatch k (withControl c h) = latched k c h := by
  have hinvalid : (BitVec.ofNat 28 (sourceOf k c) < 0x2000000) ↔ sourceOf k c < 0x02000000 := by
    rw [BitVec.lt_def, BitVec.toNat_ofNat, Nat.mod_eq_of_lt (sourceOf_lt k c)]
    rfl
  have hcount : unitCount k (fifoMode k h) c.cntL.value = if field h 12 2 = 3 then 4 else unitsOf k c := by
    rw [fifoMode_eq hn]
    exact (unitCount_eq k { c with fifo := decide (field h 12 2 = 3) }).trans (if_congr decide_eq_true_iff rfl rfl)
  have hsad : (withControl c h).sad &&& srcMask k = BitVec.ofNat 28 (sourceOf k c) := sad_and_srcMask k c
  have hdad : (withControl c h).dad &&& dstMask k = BitVec.ofNat 28 (destOf k c) := dad_and_dstMask k c
  have hctl : (withControl c h).cntH.value = h := rfl
  have hcnt : (withControl c h).cntL = c.cntL := rfl
  rw [dmaLatch, hsad, hdad, hctl, hcnt, hcount, fifoMode_eq hn]
  simp only [hinvalid]
  rfl

theorem dmaEnable_eq (t : Timing) {k : Chan} {c : DmaChannel} {h : Half} (hn : ¬ ∃ r, Refused499 k c h r) :
    dmaEnable t k (withControl c h)
      = if field h 12 2 = 0 then started t (latched k c h) else { latched k c h with state := .paused } := by
  have ht : timing (withControl c h).cntH.value = 0 ↔ field h 12 2 = 0 := (field_timing_iff h 0 (by decide)).symm
  rw [dmaEnable, dmaLatch_eq hn, dmaStart_eq_started]
  exact if_congr ht rfl rfl

/-! ### A channel that is disabled (R508) -/

/-- A channel that stops, its stream ended. -/
def halted (c : DmaChannel) : DmaChannel := { c with state := .inactive, stop := false, eepromWrote := false }

theorem marked_of_eq {c : DmaChannel} {b : Bool} (h : c.eepromWrote = b) : marked b c = c := by
  subst h
  rfl

/-- Where the channel did not write the window, no stream ends. -/
theorem streamBoundary_unmarked {k : Chan} {s : State} (h : (chan s k).eepromWrote = false) :
    streamBoundary k s = s := if_neg (by rw [h]; decide)

theorem dmaHalt_setChan (k : Chan) (c : DmaChannel) (s : State) :
    dmaHalt k (setChan k c s) = setChan k (halted c) (if c.eepromWrote then endStream s else s) := by
  cases hc : c.eepromWrote with
  | true =>
    rw [← marked_of_eq hc, dmaHalt_marked]
    rfl
  | false =>
    have hhalted : dmaStopped c = halted c := by rw [← marked_of_eq hc]; rfl
    have hb : (chan (setChan k c s) k).eepromWrote = false := by rw [chan_setChan_same, hc]
    rw [dmaHalt, streamBoundary_unmarked hb, chan_setChan_same, setChan_setChan, hhalted]
    rfl

/-! ### The control register written -/

/-- The control value a halfword leaves, by the masks of R51. -/
theorem control_stored {s : State} (hs : Dma2Ok s) (k : Chan) (d : Half) :
    (chan s k).cntH.stored d 0xFFFF = d &&& cntHMask k :=
  (cell_stored (hs k).1 .cntH (and_not_whole d)).trans (merged_whole ..)

section
variable {s : State} (hs : Dma2Ok s) {k : Chan} {d h : Half} (hd : d &&& cntHMask k = h)
include hs hd

/-- No edge of the enable bit. -/
theorem dmaControl_same (he : enableBit h = enableBit (chan s k).cntH.value) :
    dmaCellWrite k .cntH d 0xFFFF s = .next (withChan s k (withControl (chan s k) h)) := by
  have hstored : ((chan s k).cell .cntH).stored d 0xFFFF = h := (control_stored hs k d).trans hd
  rw [dmaCellWrite_of_enable_same (and_not_whole d)] <;> rw [hstored]
  · rfl
  · exact he

/-- The store and the edge, where the value is not refused. -/
theorem dmaControl_edge (hr : regRefusal k .cntH (chan s k) d 0xFFFF = none) :
    dmaCellWrite k .cntH d 0xFFFF s
      = .next (enableEdge k (enableBit (chan s k).cntH.value) (setChan k (withControl (chan s k) h) s)) := by
  have hstored : ((chan s k).cell .cntH).stored d 0xFFFF = h := (control_stored hs k d).trans hd
  rw [dmaCellWrite, hr]
  simp only [dmaRegStore, Reg16.write, if_pos (and_not_whole d), bindR_next, hstored]
  rfl

/-- A falling edge. -/
theorem dmaControl_fall (hold : enableBit (chan s k).cntH.value = true) (hnew : enableBit h = false) :
    dmaCellWrite k .cntH d 0xFFFF s = .next (dmaDisable k (setChan k (withControl (chan s k) h) s)) := by
  have hr : regRefusal k .cntH (chan s k) d 0xFFFF = none :=
    if_neg fun hc => absurd (hold.symm.trans hc.2.1) (by decide)
  have hchan : enableBit (chan (setChan k (withControl (chan s k) h) s) k).cntH.value = false := by
    rw [chan_setChan_same]
    exact hnew
  rw [dmaControl_edge hs hd hr, enableEdge, hold, if_neg (by simp), if_pos ⟨rfl, hchan⟩]

/-- A rising edge is refused, or enables the channel. -/
theorem dmaControl_rise (hold : enableBit (chan s k).cntH.value = false) (hnew : enableBit h = true) :
    ((∃ r, Refused499 k (chan s k) h r) →
      ∃ r, Refused499 k (chan s k) h r ∧ dmaCellWrite k .cntH d 0xFFFF s = .refused r)
    ∧ ((¬ ∃ r, Refused499 k (chan s k) h r) → dmaCellWrite k .cntH d 0xFFFF s
        = .next (setChan k (dmaEnable s.cfg.timing k (withControl (chan s k) h)) s)) := by
  have hstored : (chan s k).cntH.stored d 0xFFFF = h := (control_stored hs k d).trans hd
  have hr : regRefusal k .cntH (chan s k) d 0xFFFF
      = enableRefusal k ((chan s k).dad &&& dstMask k) h := by
    rw [regRefusal, hstored]
    exact if_pos ⟨rfl, hold, hnew⟩
  obtain ⟨some_spec, none_spec⟩ := enableRefusal_spec k (chan s k) h
  rw [← hr] at some_spec none_spec
  cases he : regRefusal k .cntH (chan s k) d 0xFFFF with
  | some r =>
    exact ⟨fun _ => ⟨r, some_spec r he, by rw [dmaCellWrite, he]⟩, fun hn => absurd ⟨r, some_spec r he⟩ hn⟩
  | none =>
    refine ⟨fun hex => absurd hex (none_spec he), fun _ => ?_⟩
    have hchan : chan (setChan k (withControl (chan s k) h) s) k = withControl (chan s k) h := chan_setChan_same ..
    rw [dmaControl_edge hs hd he, enableEdge, hchan, hold, if_pos ⟨rfl, hnew⟩, setChan_setChan]
    rfl

end

/-! ### Disabling, by the state of the channel (R508) -/

section
variable {k : Chan} {c : DmaChannel} (s : State)

theorem dmaDisable_inactive (h : c.state = .inactive) : dmaDisable k (setChan k c s) = setChan k c s := by
  simp only [dmaDisable, chan_setChan_same, h]

theorem dmaDisable_active (h : c.state = .active) :
    dmaDisable k (setChan k c s) = setChan k { c with stop := true } s := by
  simp only [dmaDisable, chan_setChan_same, h, setChan_setChan]

theorem dmaDisable_waiting (h : c.state = .starting ∨ c.state = .paused) :
    dmaDisable k (setChan k c s) = setChan k (halted c) (if c.eepromWrote then endStream s else s) := by
  rw [← dmaHalt_setChan]
  rcases h with h | h <;> simp only [dmaDisable, chan_setChan_same, h]

end

/-! ### The statement -/

theorem exec_enableRow (k : Chan) (x : BitVec 15) (s : State) :
    exec (enableRow k x) s = callWrite .cpu (regAddr k 10) .b2 ((1#1 ++ x).setWidth 32) s := by cases k <;> rfl

theorem exec_disableRow (k : Chan) (x : BitVec 15) (s : State) :
    exec (disableRow k x) s = callWrite .cpu (regAddr k 10) .b2 ((0#1 ++ x).setWidth 32) s := by cases k <;> rfl

/-- Settles O48: each form is one halfword write of the control cell, taken by the edge it makes. -/
theorem dmaControlWrite : Obligations.DmaControlWrite := by
  intro s m k ctl i hopen hs hi c h
  have hexec : exec i s = dmaCellWrite k .cntH ctl 0xFFFF s := by
    have hcall : exec i s = callWrite m (regAddr k 10) .b2 (ctl.setWidth 32) s := by
      obtain rfl | ⟨rfl, rfl | ⟨x, rfl, rfl⟩ | ⟨x, rfl, rfl⟩⟩ := hi
      exacts [rfl, exec_cntHRow .., exec_enableRow .., exec_disableRow ..]
    rw [hcall, callWrite_control hopen, BitVec.setWidth_setWidth_of_le _ (by decide), BitVec.setWidth_eq]
  have bit (x : Half) : field x 15 1 = 1 ↔ enableBit x = true := field_one_iff x 15
  have bit0 (x : Half) : field x 15 1 = 0 ↔ enableBit x = false := by
    rw [← Bool.not_eq_true, ← bit, field]
    omega
  rw [hexec]
  refine ⟨fun he => ?_, fun h0 h1 => ?_, fun h0 h1 hn => ?_, fun h1 h0 hst => ?_, fun h1 h0 hst => ?_,
    fun h1 h0 hst => ?_⟩
  · exact dmaControl_same hs rfl (Bool.eq_iff_iff.2 (by rw [← bit, ← bit, he]))
  · exact (dmaControl_rise hs rfl ((bit0 _).1 h0) ((bit _).1 h1)).1
  · rw [(dmaControl_rise hs rfl ((bit0 _).1 h0) ((bit _).1 h1)).2 hn, dmaEnable_eq _ hn]
    rfl
  all_goals rw [dmaControl_fall hs rfl ((bit _).1 h1) ((bit0 _).1 h0)]
  · rw [dmaDisable_inactive (c := withControl c h) s hst]
    rfl
  · rw [dmaDisable_active (c := withControl c h) s hst]
    rfl
  · rw [dmaDisable_waiting (c := withControl c h) s hst]
    rfl

end Sys2Proof.Machine
end

section
/-! PROOFS. One cycle of an activation of a generation-2 DMA channel that does not feed the EEPROM window
(47_dma_gen2.md R502 to R504, R507, R508, R510, R511): the count, or one unit to work RAM or to a FIFO. -/
namespace Sys2Proof.Machine

open Sys2Proof.Safety Sys2Proof.Claims

/-! ### The cycle of a count (R502) -/

/-- A channel with its counter one less. -/
def countedDown (c : DmaChannel) : DmaChannel := { c with counter := c.counter - 1 }

/-- The cycle in which the unit of the channel at work is not due. -/
theorem tick_count {s : State} {k : Chan} (h : AtWork s k) (hc : (chan s k).counter ≠ 1) :
    exec (.tick 1) s = .next (runStartings s (setChan k (countedDown (chan s k)) s)) := by
  obtain ⟨g, -, hb, ha, hl⟩ := h
  have hw : winner s.g2.dma = some k := winner_eq_some ha hl
  have hz : ¬ (chan s k).counter - 1 = 0 := by omega
  rw [exec_tick_of_nonneg (by decide), Int.toNat_one, ticks_one]
  simp only [tick1, enginesTick1, g, dmaTick1, runActive, hw, runWinner, if_neg hz, bindR_next, hb,
    completionTick1_of_idle]
  rfl

/-! ### The end of a unit that is none of the EEPROM window's (R503, R508, R510) -/

theorem afterNextUnit_eepromWrote (t : Timing) (k : Chan) (c : DmaChannel) :
    (afterNextUnit t k c).eepromWrote = c.eepromWrote := by
  unfold afterNextUnit activationDone
  split_ifs <;> rfl

/-- The last unit of an activation completes it. -/
theorem dmaComplete_unmarked {k : Chan} {c : DmaChannel} (h1 : c.remaining = 1) (hw : c.eepromWrote = false)
    (s : State) : dmaComplete k (setChan k (unitDone k c) s)
      = setChan k (activationDone k (unitDone k c)) (requested k c s) := by
  have hb : (chan (setChan k (unitDone k c) s) k).eepromWrote = false := by
    rw [chan_setChan_same]
    exact hw
  rw [dmaComplete, beforeReload, streamBoundary_unmarked hb, requestIfIrq_eq_requested h1 (unitDone_cntH k c),
    chan_setChan_same, setChan_setChan, completed_eq_activationDone]

theorem afterUnit_unmarked {k : Chan} {c : DmaChannel} (hu : 1 ≤ c.remaining) (ha : c.state = .active)
    (hw : c.eepromWrote = false) (s : State) :
    rearm k (afterUnit k (setChan k (unitDone k c) s))
      = setChan k (afterNextUnit s.cfg.timing k c) (requested k c s) := by
  by_cases he : Ends c
  · rw [afterUnit, chan_setChan_same, unitDone_remaining, unitDone_stop, afterNextUnit]
    by_cases h1 : c.remaining = 1
    · rw [if_pos (by omega), if_pos h1, dmaComplete_unmarked h1 hw, rearm_of_not_active]
      rw [chan_setChan_same]
      exact activationDone_state k _
    · have hs : c.stop = true := he.resolve_left h1
      have hdone : (unitDone k c).eepromWrote = false := hw
      have hhalted : halted (unitDone k c) = { unitDone k c with state := .inactive, stop := false } := by
        rw [halted, ← hdone]
      rw [if_neg (by omega), if_neg h1, if_pos hs, if_pos hs, dmaHalt_setChan, hdone, hhalted,
        requested_of_more h1, rearm_of_not_active]
      · rfl
      · rw [chan_setChan_same]
        nofun
  · have hrun := afterUnit_goesOn (k := k) hu ha he false s
    rwa [marked_of_eq (c := unitDone k c) hw, marked_of_eq ((afterNextUnit_eepromWrote ..).trans hw)] at hrun

/-! ### What a unit reads (R503, R507) -/

theorem cut_cut (w : Width) (v : Word) : w.cut (w.cut v) = w.cut v := by
  cases w with
  | b1 | b2 => simp [Width.cut]
  | b4 => rfl

theorem cut_readLE (m : Image) (o : Nat) (w : Width) : w.cut (readLE m o w) = readLE m o w := by
  cases w with
  | b1 | b2 => simp [Width.cut, readLE]
  | b4 => rfl

/-- The state with the draw of an invalid source counted. -/
def drewFor (c : DmaChannel) (s : State) : State := { s with draws := s.draws + if c.srcInvalid then 1 else 0 }

/-- What a unit reads: a free value for an invalid source, else the unit's value in the first work RAM. -/
theorem unitRead_value {k : Chan} {c : DmaChannel} {s : State}
    (hv : c.srcInvalid = true ∨ c.src.toNat / 0x1000000 = 2) :
    ∃ v, unitRead k (setChan k (counterOut c) s) = (v, setChan k (counterOut c) (drewFor c s))
      ∧ (Claims.unitOf c).cut v = v ∧ (c.srcInvalid = false → v = unitValue s c) := by
  have hc : chan (setChan k (counterOut c) s) k = counterOut c := chan_setChan_same ..
  cases hi : c.srcInvalid with
  | true =>
    refine ⟨(Claims.unitOf c).cut (Config.freeWord s.draws), ?_, cut_cut .., nofun⟩
    rw [unitRead, hc, if_pos (show (counterOut c).srcInvalid = true from hi), unitWidth_counterOut, drewFor, hi]
    rfl
  | false =>
    refine ⟨unitValue s c, ?_, ?_, fun _ => rfl⟩
    · rw [unitRead_ewram (by rw [hc]; exact hi) (by rw [hc]; exact hv.resolve_left (by rw [hi]; decide)), hc,
        drewFor, hi]
      rfl
    · rw [unitValue, ← readLE_eq_leValue, cut_readLE]

/-! ### Where it writes (R503) -/

theorem unitOf_wide (c : DmaChannel) : Claims.unitOf c = .b2 ∨ Claims.unitOf c = .b4 := by
  unfold Claims.unitOf
  split
  · exact .inr rfl
  · exact .inl rfl

section
variable {k : Chan} {c : DmaChannel} {v : Word} (s : State)

theorem unitWrite_iwram (hp : c.dst.toNat / 0x1000000 = 3) :
    unitWrite k v (setChan k (counterOut c) s) = .next (setChan k (counterOut c) (with2 s { s.g2 with
      iwram := storeLE s.g2.iwram (aligned (Claims.unitOf c) c.dst.toNat % 0x8000) (Claims.unitOf c) v })) := by
  have ha : ((counterOut c).dst.setWidth 32 : Word).toNat = c.dst.toNat := toNat_address c.dst
  rw [unitWrite, chan_setChan_same, unitWidth_counterOut,
    write2_ram (r := .iwram) (by rw [ha]; exact hp) (.inr (.inr rfl)), ha]
  rfl

theorem unitWrite_fifo (hd : c.dst = 0x040000A0 ∨ c.dst = 0x040000A4) (hv : (Claims.unitOf c).cut v = v) :
    unitWrite k v (setChan k (counterOut c) s) = .next (setChan k (counterOut c)
      { s with outs := s.outs ++ ioWrites (Claims.unitOf c) c.dst.toNat v }) := by
  have ha : ((counterOut c).dst.setWidth 32 : Word).toNat = c.dst.toNat := toNat_address c.dst
  have hn : c.dst.toNat = 0x040000A0 ∨ c.dst.toNat = 0x040000A4 :=
    hd.imp (congrArg BitVec.toNat) (congrArg BitVec.toNat)
  have hwrite := write2_forwarded_wide (m := .chan k) (s := setChan k (counterOut c) s)
    (a := (counterOut c).dst.setWidth 32) (by omega) (by omega) (by omega) (unitOf_wide c) v
  rw [hv, ha] at hwrite
  rw [unitWrite, chan_setChan_same, unitWidth_counterOut, hwrite]
  rfl

end

/-! ### The cycle of a unit (R502) -/

/-- The unit of a channel whose counter has run out: it read `v`, which left `u₀`, and wrote it, which left `u`. -/
theorem dmaUnit_of_write {s u₀ u : State} {k : Chan} {c : DmaChannel} {v : Word} (hr : 1 ≤ c.remaining)
    (hw : c.eepromWrote = false)
    (hread : unitRead k (setChan k (counterOut c) s) = (v, setChan k (counterOut c) u₀))
    (hwrite : unitWrite k v (setChan k (counterOut c) u₀) = .next (setChan k (counterOut c) u)) :
    dmaUnit k (setChan k (counterOut c) s) = .next (afterUnit k (setChan k (unitDone k c) u)) := by
  have hcounted := counted_eq_unitDone k c false
  rw [marked_of_eq (c := counterOut c) hw, marked_of_eq (c := unitDone k c) hw] at hcounted
  rw [dmaUnit, chan_setChan_same, if_neg (show ¬ (counterOut c).remaining = 0 from Nat.one_le_iff_ne_zero.1 hr),
    hread, hwrite, bindR_next, chan_setChan_same, hcounted, setChan_setChan]

/-- The cycle of a unit that reads and writes no channel's registers. -/
theorem tick_unit_of_write {s u₀ u : State} {k : Chan} {v : Word} (h : AtWork s k) (hu : 1 ≤ (chan s k).remaining)
    (h1 : (chan s k).counter = 1) (hw : (chan s k).eepromWrote = false)
    (hread : unitRead k (setChan k (counterOut (chan s k)) s) = (v, setChan k (counterOut (chan s k)) u₀))
    (hwrite : unitWrite k v (setChan k (counterOut (chan s k)) u₀) = .next (setChan k (counterOut (chan s k)) u))
    (hd : u.g2.dma = s.g2.dma) (hc : u.cfg = s.cfg) :
    ∃ d, exec (.tick 1) s = .next (with2 (requested k (chan s k) u) { u.g2 with dma := d })
      ∧ Worked s k (afterNextUnit s.cfg.timing k (chan s k)) d := by
  obtain ⟨-, -, -, ha, -⟩ := id h
  have htick := tick_unit h h1
  rw [dmaUnit_of_write hu hw hread hwrite, bindR_next, afterUnit_unmarked hu ha hw, hc] at htick
  obtain ⟨d, hr, hd⟩ := runStartings_setChan (u := requested k (chan s k) u) ha hd hc
    (afterNextUnit s.cfg.timing k (chan s k))
  exact ⟨d, htick.trans (congrArg _ hr), hd⟩

/-- The state after a unit into the second work RAM, but for the channels. -/
def movedToRam (s : State) (k : Chan) (c : DmaChannel) (v : Word) : State :=
  requested k c (with2 (drewFor c s) { s.g2 with
    iwram := storeLE s.g2.iwram (aligned (Claims.unitOf c) c.dst.toNat % 0x8000) (Claims.unitOf c) v })

section
variable {s : State} {k : Chan} (h : AtWork s k) (hu : 1 ≤ (chan s k).remaining) (h1 : (chan s k).counter = 1)
  (hw : (chan s k).eepromWrote = false)
  (hv : (chan s k).srcInvalid = true ∨ (chan s k).src.toNat / 0x1000000 = 2)
include h hu h1 hw hv

theorem tick_unit_iwram (hp : (chan s k).dst.toNat / 0x1000000 = 3) :
    ∃ v d, exec (.tick 1) s
        = .next (with2 (movedToRam s k (chan s k) v) { (movedToRam s k (chan s k) v).g2 with dma := d })
      ∧ ((chan s k).srcInvalid = false → v = unitValue s (chan s k))
      ∧ Worked s k (afterNextUnit s.cfg.timing k (chan s k)) d := by
  obtain ⟨v, hread, -, hvalue⟩ := unitRead_value (k := k) (s := s) hv
  obtain ⟨d, htick, hd⟩ := tick_unit_of_write h hu h1 hw hread (unitWrite_iwram (drewFor (chan s k) s) hp) rfl rfl
  exact ⟨v, d, htick, hvalue, hd⟩

theorem tick_unit_fifo (hd : (chan s k).dst = 0x040000A0 ∨ (chan s k).dst = 0x040000A4) :
    let c := chan s k
    ∃ v d, exec (.tick 1) s = .next { s with
        outs := s.outs ++ ioWrites (Claims.unitOf c) c.dst.toNat v ++ requestOf k c,
        draws := s.draws + (if c.srcInvalid then 1 else 0), g2 := { s.g2 with dma := d } }
      ∧ (c.srcInvalid = false → v = unitValue s c)
      ∧ Worked s k (afterNextUnit s.cfg.timing k c) d := by
  obtain ⟨v, hread, hcut, hvalue⟩ := unitRead_value (k := k) (s := s) hv
  obtain ⟨d, htick, hd⟩ :=
    tick_unit_of_write h hu h1 hw hread (unitWrite_fifo (drewFor (chan s k) s) hd hcut) rfl rfl
  exact ⟨v, d, htick, hvalue, hd⟩

end

end Sys2Proof.Machine
end

section
/-! PROOFS. A whole immediate transfer of a generation-2 DMA channel from the first to the second work RAM
(47_dma_gen2.md R494, R497, R498, R502, R503, R510, R512): the start delay, then one unit after another. -/
namespace Sys2Proof.Machine

open Sys2Proof.Safety Sys2Proof.Claims Sys2Proof.Laws.RoundTrip

/-! ### Bytes of a unit -/

theorem lane_readLE (m : Image) (o : Nat) {w : Width} {i : Nat} (hi : i < w.bytes) :
    lane (readLE m o w) i = m.read (o + i) := by
  have byteLt (i : Nat) : (m.read i).toNat < 256 := (m.read i).isLt
  have b0 := byteLt o
  have b1 := byteLt (o + 1)
  have b2 := byteLt (o + 2)
  have b3 := byteLt (o + 3)
  apply BitVec.eq_of_toNat_eq
  rw [lane, BitVec.extractLsb'_toNat, Nat.shiftRight_eq_div_pow]
  cases w with
  | b1 =>
    obtain rfl : i = 0 := Nat.lt_one_iff.1 hi
    rw [readLE, BitVec.toNat_setWidth, Nat.add_zero]
    omega
  | b2 =>
    rw [readLE, BitVec.toNat_setWidth, toNat_append_byte]
    obtain rfl | rfl : i = 0 ∨ i = 1 := by simp only [Width.bytes] at hi; omega
    · rw [Nat.add_zero o]
      omega
    · omega
  | b4 =>
    rw [readLE, toNat_append_byte, toNat_append_byte, toNat_append_byte]
    obtain rfl | rfl | rfl | rfl : i = 0 ∨ i = 1 ∨ i = 2 ∨ i = 3 := by simp only [Width.bytes] at hi; omega
    · rw [Nat.add_zero o]
      omega
    all_goals omega

/-- Bytes stored after others. -/
theorem storedAt_append {m m' m'' : Image} {o a b : Nat} {f : Nat → Byte} (h : StoredAt m m' o a f)
    (h' : StoredAt m' m'' (o + a) b fun i => f (a + i)) : StoredAt m m'' o (a + b) f := by
  obtain ⟨hin, hout⟩ := h
  obtain ⟨hin', hout'⟩ := h'
  refine ⟨fun i hi => ?_, fun x hx => ?_⟩
  · by_cases ha : i < a
    · rw [hout' (o + i) fun j _ => by omega, hin i ha]
    · obtain ⟨j, rfl⟩ := Nat.exists_eq_add_of_le (Nat.le_of_not_lt ha)
      rw [← Nat.add_assoc]
      exact hin' j (by omega)
  · rw [hout' x fun j hj => by have := hx (a + j) (by omega); omega]
    exact hout x fun i hi => hx i (by omega)

/-! ### One channel under way alone (R502, R504) -/

/-- A block of generation 2 on which no channel but `k` is under way. -/
def Alone (s : State) (k : Chan) : Prop :=
  s.cfg.gen = .gen2 ∧ constructionRefusal s.cfg = none ∧ OnlyChannel s k

/-- What changes channel `k` and no parameter, channel or storage device beside it leaves it alone. -/
theorem alone_congr {s t : State} {k : Chan} (h : Alone s k) (hc : t.cfg = s.cfg)
    (hn : t.g2.nvs2 = s.g2.nvs2) (ho : ∀ j ≠ k, chan t j = chan s j) : Alone t k := by
  obtain ⟨g, hr, hj, hb⟩ := h
  exact ⟨hc ▸ g, hc ▸ hr, fun j hk => ho j hk ▸ hj j hk, hn ▸ hb⟩

theorem alone_setChan {s : State} {k : Chan} (h : Alone s k) (c : DmaChannel) : Alone (setChan k c s) k :=
  alone_congr h rfl rfl fun j hj => chan_setChan_other j k c s hj

theorem channels_ext {c d : Channels} (h : ∀ j, c.get j = d.get j) : c = d := by
  cases c
  cases d
  have h0 := h .c0
  have h1 := h .c1
  have h2 := h .c2
  have h3 := h .c3
  simp only [Channels.get] at h0 h1 h2 h3
  rw [h0, h1, h2, h3]

section
variable {s : State} {k : Chan} (h : Alone s k)
include h

theorem atWork_of_alone (ha : (chan s k).state = .active) : AtWork s k := by
  obtain ⟨g, hr, hj, hb⟩ := h
  refine ⟨g, hr, hb, ha, fun j hlt hja => ?_⟩
  have := hj j fun e => absurd (e ▸ hlt) (Nat.lt_irrefl _)
  rw [hja] at this
  simp at this

/-- In a cycle no channel changes but `k`. -/
theorem worked_of_alone {c : DmaChannel} {d : Channels} (hw : Worked s k c d) : d = s.g2.dma.set k c := by
  obtain ⟨-, -, hj, -⟩ := h
  obtain ⟨hk, ho⟩ := hw
  refine channels_ext fun j => ?_
  by_cases hjk : j = k
  · rw [hjk, hk, Channels.get_set_same]
  · have held : (chan s j).state ≠ .starting := by
      intro e
      have := hj j hjk
      rw [e] at this
      simp at this
    rw [ho j hjk, waited, if_neg held, Channels.get_set_other _ _ _ _ hjk]
    rfl

/-- The cycle of a Starting channel. -/
theorem tick1_starting (hst : (chan s k).state = .starting) :
    tick1 s = .next (setChan k (waited s.cfg.timing (chan s k)) s) := by
  obtain ⟨g, -, hj, hb⟩ := id h
  have hw : winner s.g2.dma = none := winner_eq_none fun j e => by
    by_cases hjk : j = k
    · rw [hjk] at e
      exact absurd (hst.symm.trans e) (by decide)
    · have := hj j hjk
      rw [chan, e] at this
      simp at this
  have hd : allAfterStartings s.cfg.timing s.g2.dma s.g2.dma
      = s.g2.dma.set k (waited s.cfg.timing (chan s k)) := by
    have after (j : Chan) : (allAfterStartings s.cfg.timing s.g2.dma s.g2.dma).get j
        = waited s.cfg.timing (chan s j) := by
      rw [get_allAfterStartings, waited_eq]
      rfl
    exact worked_of_alone h ⟨after k, fun j _ => after j⟩
  simp only [tick1, enginesTick1, g, dmaTick1, runActive, hw, bindR_next, hb, completionTick1_of_idle,
    runStartings_eq, hd]
  rfl

/-- A cycle in which a counter does not run out. -/
theorem tick1_count (hst : (chan s k).state = .starting ∨ (chan s k).state = .active)
    (hc : (chan s k).counter ≠ 1) : tick1 s = .next (setChan k (countedDown (chan s k)) s) := by
  rcases hst with hst | hst
  · rw [tick1_starting h hst, waited, if_pos hst, if_neg hc]
    rfl
  · obtain ⟨d, hr, hw⟩ := runStartings_setChan (u := s) hst rfl rfl (countedDown (chan s k))
    have htick := tick_count (atWork_of_alone h hst) hc
    rw [exec_tick_of_nonneg (by decide), Int.toNat_one, ticks_one, hr, worked_of_alone h hw] at htick
    exact htick

/-- As long as a counter does not run out, nothing but it changes. -/
theorem ticks_count {n : Nat} (hst : (chan s k).state = .starting ∨ (chan s k).state = .active)
    (hc : (n : Int) < (chan s k).counter) :
    ticks n s = .next (setChan k { chan s k with counter := (chan s k).counter - n } s) := by
  induction n generalizing s with
  | zero =>
    rw [ticks, Int.natCast_zero, Int.sub_zero]
    exact congrArg _ (setChan_chan k s).symm
  | succ n ih =>
    have hchan : chan (setChan k (countedDown (chan s k)) s) k = countedDown (chan s k) := chan_setChan_same ..
    have hlast : (countedDown (chan s k)).counter = (chan s k).counter - 1 := rfl
    rw [ticks, tick1_count h hst (by omega), bindR_next,
      ih (alone_setChan h _) (by rw [hchan]; exact hst) (by rw [hchan, hlast]; omega), hchan, hlast,
      show (chan s k).counter - 1 - n = (chan s k).counter - (n + 1 : Nat) by omega, setChan_setChan]
    rfl

/-- The cycle in which a counter of at least 1 runs out. -/
theorem ticks_due {n : Nat} (hst : (chan s k).state = .starting ∨ (chan s k).state = .active) (hn : 1 ≤ n)
    (hc : (chan s k).counter = n) : ticks n s = tick1 (setChan k { chan s k with counter := 1 } s) := by
  obtain ⟨n, rfl⟩ := Nat.exists_eq_add_of_le' hn
  have hone : (chan s k).counter - n = 1 := by omega
  rw [ticks_add, ticks_count h hst (by omega), hone, bindR_next, ticks_one]

/-- The start delay, after which the channel is Active (R494, R502). -/
theorem ticks_started (c : DmaChannel) :
    ticks s.cfg.timing.gbaStart (setChan k (started s.cfg.timing c) s)
      = .next (setChan k { c with state := .active, counter := s.cfg.timing.gbaUnit } s) := by
  by_cases h0 : s.cfg.timing.gbaStart = 0
  · rw [started, if_pos h0, if_pos h0, h0, ticks]
  · have hchan (d : DmaChannel) : chan (setChan k d s) k = d := chan_setChan_same ..
    rw [started, if_neg h0, if_neg h0, ticks_due (alone_setChan h _) (.inl (by rw [hchan]))
      (Nat.one_le_iff_ne_zero.2 h0) (by rw [hchan]), hchan, setChan_setChan,
      tick1_starting (alone_setChan h _) (by rw [hchan]), hchan, setChan_setChan]
    rfl

end

/-! ### The channel of a block copy, unit by unit (R498, R503, R510) -/

/-- A latched channel that copies one block, upwards, from the first to the second work RAM. -/
structure CopiesBlock (k : Chan) (c : DmaChannel) : Prop where
  immediate : field c.cntH.value 12 2 = 0
  dstUp : field c.cntH.value 5 2 = 0 ∨ field c.cntH.value 5 2 = 3
  srcUp : field c.cntH.value 7 2 = 0
  fifo : c.fifo = false
  valid : c.srcInvalid = false
  goesOn : c.stop = false
  unmarked : c.eepromWrote = false
  srcAligned : sourceOf k c % (Claims.unitOf c).bytes = 0
  dstAligned : destOf k c % (Claims.unitOf c).bytes = 0
  srcFrom : 0x02000000 ≤ sourceOf k c
  srcTo : sourceOf k c + unitsOf k c * (Claims.unitOf c).bytes ≤ 0x02040000
  dstFrom : 0x03000000 ≤ destOf k c
  dstTo : destOf k c + unitsOf k c * (Claims.unitOf c).bytes ≤ 0x03008000

/-- The channel Active, with `i` units moved and the counter `n`. -/
def unitAt (k : Chan) (c : DmaChannel) (i : Nat) (n : Int) : DmaChannel :=
  { c with
    state := .active, counter := n, remaining := unitsOf k c - i,
    src := BitVec.ofNat 28 (sourceOf k c + i * (Claims.unitOf c).bytes),
    dst := BitVec.ofNat 28 (destOf k c + i * (Claims.unitOf c).bytes) }

/-- The channel with its block copied. -/
def blockDone (k : Chan) (c : DmaChannel) : DmaChannel :=
  { unitAt k c (unitsOf k c) 0 with cntH.value := c.cntH.value &&& 0x7FFF, state := .inactive, stop := false }

/-- Unit `i` lies in the block. -/
theorem unit_le_block {k : Chan} {c : DmaChannel} {i : Nat} (hi : i < unitsOf k c) :
    i * (Claims.unitOf c).bytes + (Claims.unitOf c).bytes ≤ unitsOf k c * (Claims.unitOf c).bytes := by
  rw [← Nat.succ_mul]
  exact Nat.mul_le_mul_right _ hi

section
variable {k : Chan} {c : DmaChannel} (h : CopiesBlock k c) {i : Nat} (hi : i < unitsOf k c)
include h hi

theorem unitAt_src_toNat (n : Int) :
    (unitAt k c i n).src.toNat = sourceOf k c + i * (Claims.unitOf c).bytes := by
  have := unit_le_block hi
  have := h.srcTo
  exact (BitVec.toNat_ofNat ..).trans (Nat.mod_eq_of_lt (by omega))

theorem unitAt_dst_toNat (n : Int) :
    (unitAt k c i n).dst.toNat = destOf k c + i * (Claims.unitOf c).bytes := by
  have := unit_le_block hi
  have := h.dstTo
  exact (BitVec.toNat_ofNat ..).trans (Nat.mod_eq_of_lt (by omega))

theorem unitDone_unitAt (n : Int) : unitDone k (unitAt k c i n) = unitAt k c (i + 1) 0 := by
  have hle := unit_le_block hi
  have hctl : (unitAt k c i n).cntH = c.cntH := rfl
  have hunit : Claims.unitOf (unitAt k c i n) = Claims.unitOf c := rfl
  have hsrc : movedBy (field c.cntH.value 7 2) (Claims.unitOf c).bytes
      (if k = .c0 then 0x8000000 else 0x10000000)
      (unitAt k c i n).src.toNat = sourceOf k c + (i + 1) * (Claims.unitOf c).bytes := by
    have := h.srcTo
    rw [movedBy, h.srcUp, if_neg (by decide), if_neg (by decide), unitAt_src_toNat h hi, Nat.succ_mul,
      ← Nat.add_assoc]
    exact Nat.mod_eq_of_lt (by split <;> omega)
  have hdst : movedBy (field c.cntH.value 5 2) (Claims.unitOf c).bytes
      (if k = .c3 then 0x10000000 else 0x8000000)
      (unitAt k c i n).dst.toNat = destOf k c + (i + 1) * (Claims.unitOf c).bytes := by
    have := h.dstTo
    have h1 : field c.cntH.value 5 2 ≠ 1 := by rcases h.dstUp with e | e <;> rw [e] <;> decide
    have h2 : field c.cntH.value 5 2 ≠ 2 := by rcases h.dstUp with e | e <;> rw [e] <;> decide
    rw [movedBy, if_neg h1, if_neg h2, unitAt_dst_toNat h hi, Nat.succ_mul, ← Nat.add_assoc]
    exact Nat.mod_eq_of_lt (by split <;> omega)
  have hfifo : ¬ (unitAt k c i n).fifo = true := by
    rw [show (unitAt k c i n).fifo = false from h.fifo]
    decide
  rw [unitDone, if_neg hfifo, hctl, hunit]
  rw [hsrc, hdst]
  rfl

/-- A unit before the last leaves the channel at the next one. -/
theorem afterNextUnit_unitAt (t : Timing) (n : Int) (hlast : i + 1 ≠ unitsOf k c) :
    afterNextUnit t k (unitAt k c i n) = unitAt k c (i + 1) t.gbaUnit := by
  have h1 : ¬ (unitAt k c i n).remaining = 1 := show ¬ unitsOf k c - i = 1 by omega
  have hs : ¬ (unitAt k c i n).stop = true := by
    rw [show (unitAt k c i n).stop = false from h.goesOn]
    decide
  rw [afterNextUnit, if_neg h1, if_neg hs, unitDone_unitAt h hi]
  rfl

/-- The last unit ends the transfer. -/
theorem afterNextUnit_last (t : Timing) (n : Int) (hlast : i + 1 = unitsOf k c) :
    afterNextUnit t k (unitAt k c i n) = blockDone k c := by
  have h1 : (unitAt k c i n).remaining = 1 := show unitsOf k c - i = 1 by omega
  have honce : ¬ (field (unitAt k c (i + 1) 0).cntH.value 9 1 = 1
      ∧ field (unitAt k c (i + 1) 0).cntH.value 12 2 ≠ 0 ∧ field (unitAt k c (i + 1) 0).cntH.value 15 1 = 1
      ∧ (unitAt k c (i + 1) 0).stop = false) := fun e => e.2.1 h.immediate
  rw [afterNextUnit, if_pos h1, unitDone_unitAt h hi, activationDone, if_neg honce, hlast]
  rfl

end

/-! ### The units of a block copy (R502, R503) -/

/-- What unit `i` of the block moves. -/
def blockUnit (s : State) (k : Chan) (c : DmaChannel) (i : Nat) : Word :=
  readLE s.g2.ewram (sourceOf k c - 0x02000000 + i * (Claims.unitOf c).bytes) (Claims.unitOf c)

/-- The second work RAM with the block's first units copied into it. -/
def copiedUnits (s : State) (k : Chan) (c : DmaChannel) : Nat → Image
  | 0 => s.g2.iwram
  | i + 1 => storeLE (copiedUnits s k c i) (destOf k c - 0x03000000 + i * (Claims.unitOf c).bytes)
      (Claims.unitOf c) (blockUnit s k c i)

/-- The state with `i` units copied, but for the channel. -/
def withCopied (s : State) (k : Chan) (c : DmaChannel) (i : Nat) : State :=
  with2 s { s.g2 with iwram := copiedUnits s k c i }

/-- The transfer under way, with `i` units copied and the counter `n`. -/
def underway (s : State) (k : Chan) (c : DmaChannel) (i : Nat) (n : Int) : State :=
  setChan k (unitAt k c i n) (withCopied s k c i)

theorem copiedUnits_size (s : State) (k : Chan) (c : DmaChannel) (i : Nat) :
    (copiedUnits s k c i).size = s.g2.iwram.size := by
  induction i with
  | zero => rfl
  | succ i ih => rw [copiedUnits, storeLE_size, ih]

theorem copiedUnits_wf {s : State} (hm : s.g2.iwram.wf = true) (k : Chan) (c : DmaChannel) (i : Nat) :
    (copiedUnits s k c i).wf = true := by
  induction i with
  | zero => exact hm
  | succ i ih => exact storeLE_wf ih ..

/-- The first units of the block are the source's bytes. -/
theorem storedAt_copiedUnits {s : State} {k : Chan} {c : DmaChannel} (h : CopiesBlock k c)
    (hm : s.g2.iwram.wf = true) (hs : s.g2.iwram.size = 0x8000) {i : Nat} (hi : i ≤ unitsOf k c) :
    StoredAt s.g2.iwram (copiedUnits s k c i) (destOf k c - 0x03000000) (i * (Claims.unitOf c).bytes)
      fun j => s.g2.ewram.read (sourceOf k c - 0x02000000 + j) := by
  induction i with
  | zero =>
    rw [Nat.zero_mul]
    exact storedAt_zero ..
  | succ i ih =>
    have hfit : destOf k c - 0x03000000 + i * (Claims.unitOf c).bytes + (Claims.unitOf c).bytes
        ≤ (copiedUnits s k c i).size := by
      have := unit_le_block hi
      have := h.dstTo
      have := h.dstFrom
      rw [copiedUnits_size, hs]
      omega
    rw [Nat.succ_mul]
    refine storedAt_append (ih (Nat.le_of_lt hi)) (storedAt_congr
      (storedAt_storeLE (copiedUnits_wf hm k c i) (blockUnit s k c i) hfit) fun j hj => ?_)
    rw [← lane_eq_valueByte, blockUnit, lane_readLE _ _ hj, Nat.add_assoc]

theorem alone_underway {s : State} {k : Chan} (ha : Alone s k) (c : DmaChannel) (i : Nat) (n : Int) :
    Alone (underway s k c i n) k :=
  alone_setChan (alone_congr ha rfl rfl fun _ _ => rfl) _

/-- The places of unit `i` in the two memories. -/
theorem unitAt_places {k : Chan} {c : DmaChannel} (h : CopiesBlock k c) {i : Nat} (hi : i < unitsOf k c) :
    aligned (Claims.unitOf c) (sourceOf k c + i * (Claims.unitOf c).bytes) % 0x40000
      = sourceOf k c - 0x02000000 + i * (Claims.unitOf c).bytes
    ∧ aligned (Claims.unitOf c) (destOf k c + i * (Claims.unitOf c).bytes) % 0x8000
      = destOf k c - 0x03000000 + i * (Claims.unitOf c).bytes := by
  have place {a : Nat} (ha : a % (Claims.unitOf c).bytes = 0) :
      aligned (Claims.unitOf c) (a + i * (Claims.unitOf c).bytes) = a + i * (Claims.unitOf c).bytes :=
    Nat.div_mul_cancel (Nat.dvd_add (Nat.dvd_of_mod_eq_zero ha) (Nat.dvd_mul_left ..))
  have hle := unit_le_block hi
  have hw : 1 ≤ (Claims.unitOf c).bytes := by rcases unitOf_wide c with e | e <;> rw [e] <;> decide
  obtain ⟨-, -, -, -, -, -, -, hsa, hda, hs1, hs2, hd1, hd2⟩ := h
  rw [place hsa, place hda]
  constructor <;> omega

section
variable {s : State} {k : Chan} {c : DmaChannel} (h : CopiesBlock k c) (ha : Alone s k) {i : Nat}
  (hi : i < unitsOf k c)
include h ha hi

/-- The cycle in which unit `i` is due copies it. -/
theorem tick1_underway :
    tick1 (underway s k c i 1) = .next (setChan k (afterNextUnit s.cfg.timing k (unitAt k c i 1))
      (requested k (unitAt k c i 1) (withCopied s k c (i + 1)))) := by
  obtain ⟨hsrc, hdst⟩ := unitAt_places h hi
  have hchan : chan (underway s k c i 1) k = unitAt k c i 1 := chan_setChan_same ..
  have halone := alone_underway ha c i 1
  have hwork : AtWork (underway s k c i 1) k := atWork_of_alone halone (by rw [hchan]; rfl)
  have hs := unitAt_src_toNat h hi 1
  have hd := unitAt_dst_toNat h hi 1
  have hle := unit_le_block hi
  have hw : 1 ≤ (Claims.unitOf c).bytes := by rcases unitOf_wide c with e | e <;> rw [e] <;> decide
  obtain ⟨v, d, htick, hvalue, hworked⟩ := tick_unit_iwram hwork (by rw [hchan]; exact Nat.sub_pos_of_lt hi)
    (by rw [hchan]; rfl) (by rw [hchan]; exact h.unmarked)
    (.inr (by rw [hchan, hs]; have := h.srcFrom; have := h.srcTo; omega))
    (by rw [hchan, hd]; have := h.dstFrom; have := h.dstTo; omega)
  rw [hchan] at htick hvalue hworked
  have hv : v = blockUnit s k c i := by
    have hunit : Claims.unitOf (unitAt k c i 1) = Claims.unitOf c := rfl
    rw [hvalue h.valid, unitValue, ← readLE_eq_leValue, hs, hunit, hsrc]
    rfl
  rw [exec_tick_of_nonneg (by decide), Int.toNat_one, ticks_one, worked_of_alone halone hworked] at htick
  have hunit : Claims.unitOf (unitAt k c i 1) = Claims.unitOf c := rfl
  have hdraws : drewFor (unitAt k c i 1) (underway s k c i 1) = underway s k c i 1 := by
    rw [drewFor, show (unitAt k c i 1).srcInvalid = false from h.valid]
    rfl
  rw [htick, hv, movedToRam, hdraws, hd, hunit, hdst]
  cases k <;> rfl

/-- The cycles of unit `i`. -/
theorem ticks_underway :
    ticks s.cfg.timing.gbaUnit (underway s k c i s.cfg.timing.gbaUnit)
      = .next (setChan k (afterNextUnit s.cfg.timing k (unitAt k c i 1))
          (requested k (unitAt k c i 1) (withCopied s k c (i + 1)))) := by
  obtain ⟨-, hr, -⟩ := id ha
  obtain ⟨-, ⟨-, -, -, -, -, -, hunit⟩, -⟩ := constructionRefusal_eq_none.1 hr
  have hchan (n : Int) : chan (underway s k c i n) k = unitAt k c i n := chan_setChan_same ..
  rw [ticks_due (alone_underway ha c i _) (.inr (by rw [hchan]; rfl)) hunit (by rw [hchan]; rfl), hchan, underway,
    setChan_setChan]
  exact tick1_underway h ha hi

end

/-- All units but the last, each followed by the next one's count. -/
theorem ticks_copying {s : State} {k : Chan} {c : DmaChannel} (h : CopiesBlock k c) (ha : Alone s k) {i : Nat}
    (hi : i < unitsOf k c) :
    ticks (i * s.cfg.timing.gbaUnit) (underway s k c 0 s.cfg.timing.gbaUnit)
      = .next (underway s k c i s.cfg.timing.gbaUnit) := by
  induction i with
  | zero => rw [Nat.zero_mul, ticks]
  | succ i ih =>
    have hmore : (unitAt k c i 1).remaining ≠ 1 := show unitsOf k c - i ≠ 1 by omega
    rw [Nat.succ_mul, ticks_add, ih (by omega), bindR_next, ticks_underway h ha (by omega),
      afterNextUnit_unitAt h (by omega) _ _ (by omega), requested_of_more hmore]
    rfl

theorem one_le_unitsOf (k : Chan) (c : DmaChannel) : 1 ≤ unitsOf k c :=
  (one_le_unitCount k false c.cntL.value).trans_eq (unitCount_eq k { c with fifo := false })

/-- The whole block, its last unit ending the transfer with its request. -/
theorem ticks_block {s : State} {k : Chan} {c : DmaChannel} (h : CopiesBlock k c) (ha : Alone s k) :
    ticks (unitsOf k c * s.cfg.timing.gbaUnit) (underway s k c 0 s.cfg.timing.gbaUnit)
      = .next (setChan k (blockDone k c) { withCopied s k c (unitsOf k c) with
          outs := s.outs ++ if field c.cntH.value 14 1 = 1 then [.interrupt k] else [] }) := by
  obtain ⟨n, hn⟩ := Nat.exists_eq_add_of_le' (one_le_unitsOf k c)
  have hlast : (unitAt k c n 1).remaining = 1 := show unitsOf k c - n = 1 by omega
  rw [hn, Nat.succ_mul, ticks_add, ticks_copying h ha (by omega), bindR_next, ticks_underway h ha (by omega),
    afterNextUnit_last h (by omega) _ _ hn.symm, requested, requestOf]
  simp only [hlast, true_and]
  rfl

/-! ### The enabling write (R494) -/

/-- A field of a control value whose bits the write mask holds. -/
theorem field_masked (k : Chan) (h : Half) {i n : Nat} (hm : (cntHMask k).extractLsb' i n = BitVec.allOnes n) :
    field (h &&& cntHMask k) i n = field h i n := by
  rw [field_eq_extract, BitVec.extractLsb'_and, hm, BitVec.and_allOnes, field_eq_extract]

/-- The unit width of an immediate transfer (R497). -/
theorem unitOf_latched {k : Chan} {c : DmaChannel} {h : Half} (ht : field h 12 2 = 0) :
    (Claims.unitOf (latched k c h)).bytes = if field h 10 1 = 1 then 4 else 2 := by
  have hfifo : (latched k c h).fifo = false := decide_eq_false (by rw [ht]; decide)
  have hw : (latched k c h).fifo = true ∨ field (latched k c h).cntH.value 10 1 = 1 ↔ field h 10 1 = 1 := by
    rw [hfifo]
    exact or_iff_right (by decide)
  rw [Claims.unitOf, apply_ite Width.bytes]
  exact if_congr hw rfl rfl

/-- The start delay of an immediate transfer that was just enabled (R494). -/
theorem ticks_enabled {s : State} {k : Chan} {c : DmaChannel} {h : Half} (ha : Alone s k) (ht : field h 12 2 = 0) :
    ticks s.cfg.timing.gbaStart (withChan s k (started s.cfg.timing (latched k c h)))
      = .next (underway s k (latched k c h) 0 s.cfg.timing.gbaUnit) := by
  have hcount : (latched k c h).remaining = unitsOf k (latched k c h) := if_neg (by rw [ht]; decide)
  have hfirst : unitAt k (latched k c h) 0 s.cfg.timing.gbaUnit
      = { latched k c h with state := .active, counter := s.cfg.timing.gbaUnit } := by
    rw [unitAt, Nat.zero_mul, Nat.add_zero, Nat.add_zero, Nat.sub_zero, ← hcount]
    rfl
  rw [withChan_eq_setChan, ticks_started ha, underway, hfirst]
  rfl

/-- The write mask holds the fields that the statement reads (R51). -/
theorem fields_masked (k : Chan) (h : Half) :
    field (h &&& cntHMask k) 12 2 = field h 12 2 ∧ field (h &&& cntHMask k) 5 2 = field h 5 2
      ∧ field (h &&& cntHMask k) 7 2 = field h 7 2 ∧ field (h &&& cntHMask k) 10 1 = field h 10 1
      ∧ field (h &&& cntHMask k) 14 1 = field h 14 1 ∧ field (h &&& cntHMask k) 15 1 = field h 15 1 := by
  refine ⟨field_masked k h ?_, field_masked k h ?_, field_masked k h ?_, field_masked k h ?_, field_masked k h ?_,
    field_masked k h ?_⟩ <;> cases k <;> rfl

theorem field_enable (ctl : BitVec 15) : field (1#1 ++ ctl : Half) 15 1 = 1 := by
  have := ctl.isLt
  rw [field, append_toNat, BitVec.toNat_ofNat]
  omega

/-- A channel that an immediate block copy leaves, in the words of the statement (R510, R512). -/
theorem blockDone_latched {k : Chan} {c : DmaChannel} {h : Half} (ht : field h 12 2 = 0)
    (hs : 0x02000000 ≤ sourceOf k c) :
    let n := unitsOf k c * (Claims.unitOf (latched k c h)).bytes
    blockDone k (latched k c h) = { c with
      cntH.value := h &&& 0x7FFF, state := .inactive,
      src := BitVec.ofNat 28 (sourceOf k c + n), dst := BitVec.ofNat 28 (destOf k c + n),
      remaining := 0, counter := 0, srcInvalid := false, fifo := false, stop := false, eepromWrote := false } := by
  have hfifo : (latched k c h).fifo = false := decide_eq_false (by rw [ht]; decide)
  have hvalid : (latched k c h).srcInvalid = false := decide_eq_false (Nat.not_lt.2 hs)
  rw [blockDone, unitAt, hfifo, hvalid, Nat.sub_self]
  rfl

/-! ### The statement -/

/-- Settles O50: the delay and the units of a block one after another; and the cycle of any unit. -/
theorem gen2TransferCopiesBlock : Obligations.Gen2TransferCopiesBlock := by
  constructor
  · intro s t k ctl n ho hm hsz hs honly h0 h c w src dst ht hd hsc hn hsa hda hs1 hs2 hd1 hd2 hexec
    obtain ⟨g, hr, -⟩ := id ho
    obtain ⟨-, -, hwf, -⟩ := memoryOk_iff.1 hm
    obtain ⟨-, -, -, -, -, -, hsize, -⟩ := hsz
    obtain ⟨ft, fd, fs, fw, fi, fe⟩ := fields_masked k h
    have ha : Alone s k := ⟨g, hr, honly⟩
    have hbytes : (Claims.unitOf (latched k c (h &&& cntHMask k))).bytes = w := by
      rw [unitOf_latched (ft.trans ht), fw]
    have hblock : CopiesBlock k (latched k c (h &&& cntHMask k)) := {
      immediate := ft.trans ht
      dstUp := hd.imp fd.trans fd.trans
      srcUp := fs.trans hsc
      fifo := decide_eq_false (by rw [ft, ht]; decide)
      valid := decide_eq_false (Nat.not_lt.2 hs1)
      goesOn := rfl
      unmarked := rfl
      srcAligned := by rw [hbytes]; exact hsa
      dstAligned := by rw [hbytes]; exact hda
      srcFrom := hs1
      srcTo := by rw [hbytes]; exact hn ▸ hs2
      dstFrom := hd1
      dstTo := by rw [hbytes]; exact hn ▸ hd2 }
    have ht' : t = withChan s k (started s.cfg.timing (latched k c (h &&& cntHMask k))) := by
      have hon : field (h &&& cntHMask k) 15 1 = 1 := fe.trans (field_enable ctl)
      obtain ⟨-, refused, accepted, -⟩ := dmaControlWrite s .cpu k h (enableRow k ctl) (open2By_cpu ho) hs
        (.inr ⟨rfl, .inr (.inl ⟨ctl, rfl, rfl⟩)⟩)
      have legal : ¬ ∃ r, Refused499 k c (h &&& cntHMask k) r := fun hex => by
        obtain ⟨r, -, he⟩ := refused h0 hon hex
        cases hexec.symm.trans he
      have hnext := hexec.symm.trans (accepted h0 hon legal)
      rw [if_pos (ft.trans ht)] at hnext
      exact Host.Outcome.next.inj hnext
    have stored := storedAt_copiedUnits hblock hwf hsize (Nat.le_refl _)
    have hcount : unitsOf k (latched k c (h &&& cntHMask k)) = n := hn.symm
    refine ⟨copiedUnits s k (latched k c (h &&& cntHMask k)) n, ?_, ?_⟩
    · have hrun := ticks_block hblock ha
      rw [hcount, blockDone_latched (ft.trans ht) hs1, hbytes, ← hn] at hrun
      rw [ht', exec_tick_of_nonneg (Int.natCast_nonneg _), Int.toNat_natCast, ticks_add,
        ticks_enabled ha (ft.trans ht), bindR_next, hrun, show field (latched k c _).cntH.value 14 1 = _ from fi]
      rfl
    · rw [hcount, hbytes] at stored
      exact stored
  · intro s k hwork hm hsz hs c w
    obtain ⟨-, -, -, ha, -⟩ := id hwork
    have hu : 1 ≤ c.remaining := (hs k).2 (by rw [ha]; decide)
    refine ⟨fun hc => ?_, fun h1 hw hv => ⟨fun hp => ?_, tick_unit_fifo hwork hu h1 hw hv⟩⟩
    · obtain ⟨d, hr, hd⟩ := runStartings_setChan (u := s) ha rfl rfl (countedDown c)
      exact ⟨d, (tick_count hwork hc).trans (congrArg _ hr), hd⟩
    · obtain ⟨v, d, htick, hvalue, hd⟩ := tick_unit_iwram hwork hu h1 hw hv hp
      have hend : aligned w c.dst.toNat % 0x8000 + w.bytes ≤ s.g2.iwram.size :=
        ram2_size hsz .iwram ▸ ram2_offset_end .iwram w c.dst.toNat
      exact ⟨v, _, d, htick, storedAt_storeLE (ram2_wf hm .iwram) v hend, hvalue, hd⟩

end Sys2Proof.Machine
end

section
/-! PROOFS. In a state that meets the invariants of the DMA channels and of the storage device the only faults a
step ends in are the caller's and the host's (60_exceptions.md R602; 44_storage_flash.md R385, 47_dma_gen2.md
R513, 40_register.md R204). -/
namespace Sys2Proof.Machine

open Sys2Proof.Safety Sys2Proof.Claims

/-! ### The two invariants -/

/-- The invariants that keep a call from an `InvariantViolation`: of the DMA channels (R513) and of the
storage device (R385). -/
def Guarded (s : State) : Prop := Dma2Ok s ∧ StorageOk s

theorem Moves.guarded {s t : State} (h : Moves s t) (hs : Guarded s) : Guarded t :=
  moves_keep (fun _ _ hm hs => ⟨hm.dma2Ok hs.1, hm.storageOk hs.2⟩) h hs

/-! ### A write to the storage window (R385) -/

/-- In Command a flash has a Program or a BankSwitch, so its write is no fault. -/
theorem flashWrite_ne_fault {c : Config} {g : Flash} (hg : flashOk c g) (t : Timing) (o : Half) (v : Byte)
    (f : Fault) : flashWrite t o v g ≠ .fault f := by
  obtain ⟨-, -, -, hcommand, -⟩ := hg
  intro h
  unfold flashWrite at h
  split at h
  · cases h
  split at h
  · cases h
  · cases h
  · cases h
  · rename_i hs
    unfold flashCommand at h
    obtain hl | hl := hcommand hs
    · rw [if_pos hl] at h
      cases h
    · rw [if_neg (by rw [hl]; decide), if_pos hl] at h
      split at h <;> cases h

theorem storageWriteByte_ne_fault {s : State} (hs : StorageOk s) (o : Half) (v : Byte) (f : Fault) :
    storageWriteByte o v s ≠ .fault f := by
  intro h
  unfold storageWriteByte at h
  split at h
  case h_4 g hn =>
    obtain h | ⟨c, -, h⟩ := bindR_eq_fault.1 h
    · rw [storageOk_iff, hn] at hs
      exact flashWrite_ne_fault hs _ o v f h
    · cases h
  all_goals cases h

theorem storageWrite_ne_fault {s : State} (g : s.cfg.gen = .gen2) (hs : StorageOk s) (a : Word) (w : Width)
    (v : Word) (f : Fault) : storageWrite a w v s ≠ .fault f := by
  refine storageWriteByte_ne_fault ?_ _ _ f
  unfold resolvedFor
  split
  · rename_i hu
    exact (Move.sniffStorage _ _ s g hu).storageOk hs
  · exact hs

/-! ### Calls -/

theorem write2_ne_fault {s : State} (g : s.cfg.gen = .gen2) (hs : StorageOk s) (m : Master) (a : Word)
    (w : Width) (v : Word) (f : Fault) : write2 m a w v s ≠ .fault f := by
  unfold write2
  split
  · exact nofun
  split
  · exact midWrite2_ne_fault a w v s f
  split
  · exact compose16W_ne_fault (fun _ _ _ _ _ => cartWrite16_ne_fault) _ w v s
  split
  · exact storageWrite_ne_fault g hs a w v f
  · exact nofun

theorem callRead_fault {m : Master} {k : AccessKind} {a : Word} {w : Width} {s : State} {f : Fault}
    (h : callRead m k a w s = .fault f) : f = .protocolViolation := by
  unfold callRead at h
  split at h
  · cases h; rfl
  · split at h <;> cases h

theorem callWrite_fault {m : Master} {a : Word} {w : Width} {v : Word} {s : State} {f : Fault}
    (hs : StorageOk s) (h : callWrite m a w v s = .fault f) : f = .protocolViolation := by
  unfold callWrite busWrite at h
  split at h
  · cases h; rfl
  · split at h
    · cases h
    · split at h
      · exact absurd h (write1_ne_fault _ _ _ s f)
      · rename_i g
        exact absurd h (write2_ne_fault g hs _ _ _ _ f)

theorem callTrigger_ne_fault (e : Event) (s : State) (f : Fault) : callTrigger e s ≠ .fault f := by
  unfold callTrigger trigger1
  split
  · cases e with
    | hblank => simp only; split <;> exact nofun
    | vblank | fifoA | fifoB => exact nofun
  · exact nofun

theorem callStream_ne_fault (l : List Bool) (s : State) (f : Fault) : callStream l s ≠ .fault f := by
  unfold callStream
  split
  · exact nofun
  · split <;> exact nofun

theorem callLoad_fault {x : SaveFile} {s : State} {f : Fault} (h : callLoad x s = .fault f) :
    f = .loadSizeError ∨ f = .storageIoError := by
  unfold callLoad load1 loadBytes1 loadTrailer load2 loadBytes2 at h
  repeat' split at h
  all_goals cases h
  all_goals first | exact .inl rfl | exact .inr rfl

theorem callSerialize_fault {b : Bool} {s : State} {f : Fault} (h : callSerialize b s = .fault f) :
    f = .storageIoError := by
  unfold callSerialize at h
  split at h <;> cases h
  rfl

/-! ### `tick` (R513) -/

/-- A channel that is not Inactive has a unit left, and what its unit writes is no fault. -/
theorem dmaUnit_ne_fault {k : Chan} {s : State} (g : s.cfg.gen = .gen2) (hs : Guarded s)
    (hk : (chan s k).state ≠ .inactive) (f : Fault) : dmaUnit k s ≠ .fault f := by
  intro h
  have hunit : 1 ≤ (chan s k).remaining := (hs.1 k).2 hk
  have hread := unitRead_moves k s g
  unfold dmaUnit at h
  rw [if_neg (by omega)] at h
  obtain h | ⟨t, -, h⟩ := bindR_eq_fault.1 h
  · exact write2_ne_fault (hread.cfg ▸ g) (hread.guarded hs).2 _ _ _ _ f h
  · cases h

theorem runActive_ne_fault {s : State} (g : s.cfg.gen = .gen2) (hs : Guarded s) (f : Fault) :
    runActive s ≠ .fault f := by
  intro h
  unfold runActive runWinner at h
  split at h
  · rename_i k hw
    have ha := winner_active hw
    have hcount : Move s (chanCount k s) := .chanCount k s g ha
    split at h
    · obtain h | ⟨t, -, h⟩ := bindR_eq_fault.1 h
      · refine dmaUnit_ne_fault (s := chanCount k s) g (hcount.one.guarded hs) ?_ f h
        simp [chanCount, ha]
      · cases h
    · cases h
  · cases h

theorem tick1_ne_fault {s : State} (hs : Guarded s) (f : Fault) : tick1 s ≠ .fault f := by
  intro h
  obtain h | ⟨t, -, h⟩ := bindR_eq_fault.1 h
  · unfold enginesTick1 at h
    split at h
    · cases h
    · rename_i g
      obtain h | ⟨t, -, h⟩ := bindR_eq_fault.1 h
      · exact runActive_ne_fault g hs f h
      · cases h
  · cases h

theorem ticks_ne_fault (n : Nat) {s : State} (hs : Guarded s) (f : Fault) : ticks n s ≠ .fault f := by
  induction n generalizing s with
  | zero => exact nofun
  | succ n ih =>
    intro h
    obtain h | ⟨t, ht, h⟩ := bindR_eq_fault.1 h
    · exact tick1_ne_fault hs f h
    · exact ih ((tick1_moves ht).guarded hs) h

theorem callTick_ne_fault {c : Int} {s : State} (hs : Guarded s) (f : Fault) : callTick c s ≠ .fault f := by
  unfold callTick
  split
  · exact nofun
  · exact ticks_ne_fault _ hs f

/-! ### Every operation and every step -/

/-- The faults that are the caller's or the host's (R600, R602). -/
def CallerOrHost (f : Fault) : Prop := f = .protocolViolation ∨ f = .loadSizeError ∨ f = .storageIoError

theorem exec_fault {i : Instr} {s : State} {f : Fault} (hs : Guarded s) (h : exec i s = .fault f) :
    CallerOrHost f := by
  have write {m a w v} (h : callWrite m a w v s = .fault f) : CallerOrHost f := .inl (callWrite_fault hs.2 h)
  have read {m k a w} (h : callRead m k a w s = .fault f) : CallerOrHost f := .inl (callRead_fault h)
  cases i with
  | tick c => exact absurd h (callTick_ne_fault hs f)
  | triggerVblank => exact absurd h (callTrigger_ne_fault .vblank s f)
  | triggerHblank => exact absurd h (callTrigger_ne_fault .hblank s f)
  | triggerFifoa => exact absurd h (callTrigger_ne_fault .fifoA s f)
  | triggerFifob => exact absurd h (callTrigger_ne_fault .fifoB s f)
  | loadGen1 x | loadGen2 x => exact .inr (callLoad_fault (x := x) h)
  | serializeGen1 b | serializeGen2 b => exact .inr (.inr (callSerialize_fault (b := b) h))
  | eepromRead6 x stop | eepromRead14 x stop => exact absurd h (callStream_ne_fault (readBits x stop) s f)
  | eepromWrite6 x d stop | eepromWrite14 x d stop =>
    exact absurd h (callStream_ne_fault (writeBits x d stop) s f)
  | storageSniff a w v =>
    cases v with
    | none => exact read h
    | some v => exact write h
  | eepromBitWrite k a d | eepromSniff k a d => exact write (m := .chan k) h
  | _ => first | exact read h | exact write h

theorem notDecoded_fault {e : DecodeError} {s : State} {f : Fault} (h : notDecoded e s = .fault f) :
    f = .protocolViolation := by
  unfold notDecoded at h
  split at h
  · split at h
    · cases h; rfl
    · split at h <;> cases h
  · obtain h | ⟨t, -, h⟩ := bindR_eq_fault.1 h
    · exact absurd h (callStream_ne_fault _ s f)
    · cases h
  · cases h

/-- Settles O11: taking a call keeps both invariants, and under them an operation ends in no fault but those of
the stall, of the file's size and of the host. -/
theorem noInvariantViolation : Obligations.NoInvariantViolation := by
  intro s f hd hst h
  cases hp : s.pending with
  | nil => rw [step_of_pending_nil hp] at h; cases h
  | cons p rest =>
    have hs : Guarded (takeCall p rest s) := ⟨hd, hst⟩
    rw [step_of_pending_cons hp] at h
    unfold runCall runFrame at h
    split at h
    · cases h
    · split at h
      · obtain h | ⟨t, -, h⟩ := bindR_eq_fault.1 h
        · exact exec_fault hs h
        · cases h
      · exact .inl (notDecoded_fault h)

end Sys2Proof.Machine
end

section
/-! PROOFS. What a call leaves beside its own effect: `load` is over after it (48_persistence.md R550), and only a
generation-2 `tick` sends interrupt requests (60_exceptions.md R610, R611). -/
namespace Sys2Proof.Machine

open Sys2Proof.Claims

/-! ### `load` is over after a call (R550) -/

theorem callLoad_late {s : State} (h : s.loadable = false) (f : SaveFile) :
    callLoad f s = .refused .lateLoad := by
  rw [callLoad, if_pos h]

/-- What a call leaves carries the mark of R550. -/
theorem runCall_loadable {p : Pending} {rest : List Pending} {s t : State}
    (h : runCall p rest s = .next t) : t.loadable = false := by
  unfold runCall runFrame at h
  split at h
  · cases h
  split at h
  · obtain ⟨u, -, ht⟩ := bindR_eq_next.1 h
    cases ht
    rfl
  · unfold notDecoded at h
    split at h
    · repeat' split at h
      all_goals cases h
    · obtain ⟨u, -, ht⟩ := bindR_eq_next.1 h
      cases ht
      rfl
    · cases h

theorem step_loadable_of_pending {p : Pending} {rest : List Pending} {s t : State}
    (hp : s.pending = p :: rest) (h : step s = .next t) : t.loadable = false :=
  runCall_loadable ((step_of_pending_cons hp).symm.trans h)

/-- Settles O19: `load` looks at the mark first, a call takes it away, and a step without one changes nothing. -/
theorem loadOnlyBeforeOtherCalls : Obligations.LoadOnlyBeforeOtherCalls := by
  refine ⟨fun f s hs => ⟨callLoad_late hs f, callLoad_late hs f⟩,
    fun p rest s t => step_loadable_of_pending, fun s t hs h => ?_⟩
  cases hp : s.pending with
  | nil =>
    rw [step_of_pending_nil hp] at h
    cases h
    exact hs
  | cons p rest => exact step_loadable_of_pending hp h

/-! ### Requests of an operation that is part of a unit's end (R510) -/

theorem requests_of_outs_eq {s t : State} (h : t.outs = s.outs) : requests t = requests s := by
  rw [requests, requests, h]

theorem requests_emit {e : OutEvent} (he : ∀ k, e ≠ .interrupt k) (s : State) :
    requests (emit e s) = requests s := (Sent.emit he s).requests

theorem requestIfIrq_requests (k : Chan) (s : State) : ∃ l, requests (requestIfIrq k s) = requests s ++ l := by
  unfold requestIfIrq
  split
  · exact ⟨[.interrupt k], by simp [requests, requestInterrupt]⟩
  · exact ⟨[], (List.append_nil _).symm⟩

theorem afterUnit_requests (k : Chan) (s : State) : ∃ l, requests (afterUnit k s) = requests s ++ l := by
  have same {u : State} (h : u.outs = s.outs) : ∃ l, requests u = requests s ++ l :=
    ⟨[], by rw [requests_of_outs_eq h, List.append_nil]⟩
  unfold afterUnit
  split
  · obtain ⟨l, hl⟩ := requestIfIrq_requests k (streamBoundary k s)
    rw [requests_of_outs_eq (streamBoundary_outs k s)] at hl
    exact ⟨l, hl⟩
  · split
    · exact same (dmaHalt_outs k s)
    · exact same rfl

/-! ### Requests of every move -/

/-- The end of a unit of generation 2 may add requests; every other move leaves them alone. -/
theorem Move.requests_cases {s t : State} (h : Move s t) :
    requests t = requests s ∨ s.cfg.gen = .gen2 ∧ ∃ l, requests t = requests s ++ l := by
  have keep (ho : t.outs = s.outs) :
      requests t = requests s ∨ s.cfg.gen = .gen2 ∧ ∃ l, requests t = requests s ++ l :=
    .inl (requests_of_outs_eq ho)
  cases h with
  | event e _ he => exact .inl (requests_emit he s)
  | unitEnd k c₀ _ g => exact .inr ⟨g, afterUnit_requests k _⟩
  | control a v _ _ => exact keep (by rw [writeControl_frame])
  | nvs1 o v _ _ => exact keep (by rw [writeNvs1_frame])
  | dmaReg v _ _ => exact keep (by rw [writeDma_frame])
  | vbk v _ _ => exact keep (by rw [writeVbk_frame])
  | boot v _ _ => exact keep (by unfold writeBoot; split <;> rfl)
  | svbk v _ _ => exact keep (by rw [writeSvbk_frame])
  | vdmaReg a v _ _ _ h => exact keep (by rw [writeVdmaReg_frame h]; rfl)
  | hblank _ _ => exact keep (by rw [vdmaHBlank_frame]; rfl)
  | oamUnit b _ _ _ => exact keep (by rw [oamNext_frame]; rfl)
  | normalize _ _ => exact keep (by rw [normalizedFor_frame]; rfl)
  | pal a w v _ _ => exact keep (by rw [writePal_frame])
  | vram2 a w v _ _ => exact keep (by rw [writeVram2_frame])
  | oam2 a w v _ _ => exact keep (by rw [writeOam2_frame])
  | storage o v _ _ _ h => exact keep (by rw [storageWriteByte_frame h])
  | sniffStorage o v _ _ _ => exact keep (by rw [sniffStorage_frame])
  | appendBit b _ _ => exact keep (by rw [appendBit_frame]; rfl)
  | endStream _ _ => exact keep (endStream_outs s)
  | rearm k _ _ => exact keep (by unfold Machine.rearm; split <;> rfl)
  | load f _ _ h => exact keep (by rw [callLoad_frame h])
  | _ => exact keep rfl

/-- Requests are never taken back. -/
theorem Moves.requests_extend {s t : State} (h : Moves s t) : ∃ l, requests t = requests s ++ l := by
  refine moves_keep (P := fun u => ∃ l, requests u = requests s ++ l) (fun u v hm ⟨l, hl⟩ => ?_) h
    ⟨[], (List.append_nil _).symm⟩
  obtain hv | ⟨-, l', hv⟩ := hm.requests_cases
  · exact ⟨l, hv.trans hl⟩
  · exact ⟨l ++ l', by rw [hv, hl, List.append_assoc]⟩

theorem Moves.requests_gen1 {s t : State} (h : Moves s t) (g : s.cfg.gen = .gen1) :
    requests t = requests s := by
  refine (moves_keep (P := fun u => u.cfg.gen = .gen1 ∧ requests u = requests s)
    (fun u v hm ⟨gu, hu⟩ => ⟨hm.cfg ▸ gu, ?_⟩) h ⟨g, rfl⟩).2
  obtain hv | ⟨g2, -⟩ := hm.requests_cases
  · exact hv.trans hu
  · exact absurd (gu.symm.trans g2) (by decide)

/-! ### Writes of generation 2 send no request -/

theorem dmaDisable_outs (k : Chan) (s : State) : (dmaDisable k s).outs = s.outs := by
  unfold dmaDisable
  split
  · exact dmaHalt_outs k s
  · exact dmaHalt_outs k s
  · rfl
  · rfl

theorem enableEdge_outs (k : Chan) (old : Bool) (s : State) : (enableEdge k old s).outs = s.outs := by
  unfold enableEdge
  split
  · rfl
  · split
    · exact dmaDisable_outs k s
    · rfl

theorem ioWrite2_requests {u : Word} {d mask : Half} {s t : State} (h : ioWrite2 u d mask s = .next t) :
    requests t = requests s := by
  unfold ioWrite2 dmaRegWrite dmaCellWrite dmaRegStore at h
  split at h
  · split at h
    · cases h
    · obtain ⟨r, -, ht⟩ := bindR_eq_next.1 h
      cases ht
      exact requests_of_outs_eq (enableEdge_outs _ _ _)
  · cases h
    exact requests_emit (by simp) s

theorem windowBit_outs (k : Chan) (d : Half) (s : State) : (windowBit k d s).outs = s.outs := by
  unfold windowBit eepromBitIn
  split <;> rw [appendBit_frame] <;> rfl

theorem cartWrite16_requests {m : Master} {u : Word} {d mask : Half} {s t : State}
    (h : cartWrite16 m u d mask s = .next t) : requests t = requests s := by
  unfold cartWrite16 at h
  split at h
  · split at h
    · cases h; exact requests_of_outs_eq (windowBit_outs _ d s)
    · cases h; exact requests_of_outs_eq (windowBit_outs _ d s)
    · cases h; rfl
    · cases h
    · cases h; rfl
  · cases h; rfl

theorem compose16W_requests {f : Word → Half → Half → State → Res State}
    (hf : ∀ (u : Word) (d mask : Half) (s t : State), f u d mask s = .next t → requests t = requests s)
    {a : Word} {w : Width} {v : Word} {s t : State} (h : compose16W f a w v s = .next t) :
    requests t = requests s := by
  cases w with
  | b1 | b2 => exact hf _ _ _ _ _ h
  | b4 =>
    obtain ⟨r, hr, ht⟩ := bindR_eq_next.1 h
    exact (hf _ _ _ _ _ ht).trans (hf _ _ _ _ _ hr)

theorem resolvedFor_outs (o : Half) (v : Byte) (s : State) : (resolvedFor o v s).outs = s.outs := by
  unfold resolvedFor
  split
  · rw [sniffStorage_frame]
  · rfl

theorem midWrite2_requests {a : Word} {w : Width} {v : Word} {s t : State}
    (h : midWrite2 a w v s = .next t) : requests t = requests s := by
  unfold midWrite2 at h
  split at h
  · split at h
    · exact compose16W_requests (fun _ _ _ _ _ => ioWrite2_requests) h
    · cases h; rfl
  split at h
  · cases h; rw [writePal_frame]; rfl
  split at h
  · cases h; rw [writeVram2_frame]; rfl
  · cases h; rw [writeOam2_frame]; rfl

theorem write2_requests {m : Master} {a : Word} {w : Width} {v : Word} {s t : State}
    (h : write2 m a w v s = .next t) : requests t = requests s := by
  unfold write2 at h
  split at h
  · cases h
    unfold lowWrite2
    repeat' split
    all_goals rfl
  split at h
  · exact midWrite2_requests h
  split at h
  · exact compose16W_requests (fun _ _ _ _ _ => cartWrite16_requests) h
  split at h
  · rw [storageWriteByte_frame h]
    exact requests_of_outs_eq (resolvedFor_outs _ _ s)
  · cases h; rfl

/-! ### Calls other than `tick` -/

theorem callRead_requests {m : Master} {k : AccessKind} {a : Word} {w : Width} {s t : State}
    (h : callRead m k a w s = .next t) : requests t = requests s := by
  obtain rfl := callRead_eq_next h
  refine Eq.trans (b := requests (busRead m k a w s).2) rfl ?_
  obtain hs | ⟨-, -, -, -, -, v, hs⟩ | ⟨-, -, e, -, n, -, hs⟩ := busRead_cases m k a w s
  · exact hs.requests
  · rw [hs]; rfl
  · rw [hs]; rfl

theorem callWrite_requests {m : Master} {a : Word} {w : Width} {v : Word} {s t : State}
    (h : callWrite m a w v s = .next t) : requests t = requests s := by
  unfold callWrite busWrite at h
  split at h
  · cases h
  split at h
  · cases h
  split at h
  · rename_i g
    exact (write1_moves g h).requests_gen1 g
  · exact write2_requests h

theorem callTrigger_requests {e : Event} {s t : State} (h : callTrigger e s = .next t) :
    requests t = requests s := by
  have hm := callTrigger_moves h
  unfold callTrigger at h
  split at h
  · rename_i g
    exact hm.requests_gen1 g
  · cases h; rfl

theorem callSerialize_requests {b : Bool} {s t : State} (h : callSerialize b s = .next t) :
    requests t = requests s := by
  cases g : s.cfg.gen with
  | gen1 => exact (callSerialize_moves h).requests_gen1 g
  | gen2 =>
    simp only [callSerialize, serializeFile, g] at h
    split at h <;> cases h
    rfl

theorem appendBits_outs (l : List Bool) (s : State) : (appendBits l s).outs = s.outs := by
  induction l generalizing s with
  | nil => rfl
  | cons b r ih => exact (ih (appendBit b s)).trans (by rw [appendBit_frame]; rfl)

theorem callStream_requests {l : List Bool} {s t : State} (h : callStream l s = .next t) :
    requests t = requests s := by
  have hsel : (eepromSelected s).outs = s.outs := by unfold eepromSelected; split <;> rfl
  unfold callStream at h
  split at h
  · cases h; rfl
  split at h
  · cases h
  · cases h
    exact requests_of_outs_eq ((endStream_outs _).trans ((appendBits_outs l _).trans hsel))

theorem callLoad_requests {f : SaveFile} {s t : State} (h : callLoad f s = .next t) :
    requests t = requests s := by
  rw [callLoad_frame h]; rfl

theorem exec_requests {i : Instr} {s t : State} (hi : ∀ c, i ≠ .tick c) (h : exec i s = .next t) :
    requests t = requests s := by
  cases i with
  | tick c => exact absurd rfl (hi c)
  | triggerVblank => exact callTrigger_requests (e := .vblank) h
  | triggerHblank => exact callTrigger_requests (e := .hblank) h
  | triggerFifoa => exact callTrigger_requests (e := .fifoA) h
  | triggerFifob => exact callTrigger_requests (e := .fifoB) h
  | loadGen1 f | loadGen2 f => exact callLoad_requests (f := f) h
  | serializeGen1 b | serializeGen2 b => exact callSerialize_requests (b := b) h
  | eepromRead6 x stop | eepromRead14 x stop => exact callStream_requests (l := readBits x stop) h
  | eepromWrite6 x d stop | eepromWrite14 x d stop => exact callStream_requests (l := writeBits x d stop) h
  | storageSniff a w v =>
    cases v with
    | none => exact callRead_requests h
    | some v => exact callWrite_requests h
  | eepromBitWrite k a d | eepromSniff k a d => exact callWrite_requests (m := .chan k) h
  | _ => first | exact callRead_requests h | exact callWrite_requests h

/-- Settles O20: only the end of a unit sends a request, no generation-1 move is one, and of the calls only
`tick` makes it. -/
theorem interruptsOnlyFromGen2Tick : Obligations.InterruptsOnlyFromGen2Tick := fun _ _ _ h =>
  ⟨(exec_moves h).requests_extend, Or.rec (exec_moves h).requests_gen1 fun hi => exec_requests hi h⟩

end Sys2Proof.Machine
end

section
/-! PROOFS. Construction (70_reset_and_hazards.md R640 to R642): the state of reset values meets every invariant, so
does what `load` leaves of it, and its I/O registers read as after reset. -/
namespace Sys2Proof.Machine

open Sys2Proof.Safety Sys2Proof.Claims Sys2Proof.Laws.RoundTrip

/-! ### The state of reset values (R641) -/

section
variable (c : Config) (h : HostIn)

theorem nvs1Of_wf {n : Nvs1} (hn : nvs1Of c.cart = some n) : n.bytes.wf = true := by
  unfold nvs1Of at hn
  repeat' split at hn
  all_goals cases hn
  all_goals exact drawn_wf _ _

theorem nvs2Of_canonical : (nvs2Of c).canonical := by
  unfold nvs2Of
  split
  · exact Nvs2.canonical_unresolved
  · exact variantOf_canonical c _ (freshBytes_wf _ _)

theorem memoryOk_ofConfig : MemoryOk (State.ofConfig c h) :=
  memoryOk_iff.2 ⟨⟨drawn_wf _ _, drawn_wf _ _, drawn_wf _ _, drawn_wf _ _, fun _ => nvs1Of_wf c⟩,
    drawn_wf _ _, drawn_wf _ _, drawn_wf _ _, drawn_wf _ _, drawn_wf _ _, nvs2Of_canonical c⟩

theorem ramSized_nvs1Of (c : Cart) : ramSized c (nvs1Of c) := by
  unfold ramSized nvs1Of
  split
  · exact ⟨_, rfl, rfl⟩
  · split
    · rfl
    · exact ⟨_, rfl, rfl⟩

theorem sizesOk_ofConfig : SizesOk (State.ofConfig c h) :=
  ⟨rfl, rfl, rfl, rfl, ramSized_nvs1Of c.cart, rfl, rfl, rfl, rfl, rfl, fun _ => rfl⟩

theorem bankOk_ofConfig : BankOk (State.ofConfig c h) := by
  have hrange (f : Family) : bankInRange f BankState.reset := by
    cases f <;> simp [bankInRange, BankState.reset]
  exact bankOk_iff.2 ⟨hrange _, iff_of_false Bool.false_ne_true (show ¬ (0 : BitVec 1) = 1 by decide)⟩

theorem dma1Ok_ofConfig : Dma1Ok (State.ofConfig c h) :=
  dma1Ok_iff.2 ⟨oamDmaOk_inactive rfl, vdmaOk_inactive rfl⟩

theorem cellOk_reset (readMask writeMask : Half) : cellOk (.reset readMask writeMask) readMask writeMask :=
  ⟨rfl, rfl, BitVec.zero_and⟩

theorem dma2Ok_ofConfig : Dma2Ok (State.ofConfig c h) := by
  intro k
  cases k <;>
    exact ⟨⟨cellOk_reset _ _, cellOk_reset _ _, cellOk_reset _ _, cellOk_reset _ _, cellOk_reset _ _,
      cellOk_reset _ _⟩, fun hs => absurd rfl hs⟩

theorem storageOk_ofConfig : StorageOk (State.ofConfig c h) := by
  refine storageOk_iff.2 (show deviceOk c (nvs2Of c) from ?_)
  unfold nvs2Of
  split
  · trivial
  · exact deviceOk_variantOf c (freshBytes_size _ _)

theorem overrideOk_ofConfig : OverrideOk (State.ofConfig c h) := by
  intro ho
  show nvs2Of c ≠ .unresolved
  unfold nvs2Of
  split
  · rename_i hnone
    exact absurd hnone ho
  · exact variantOf_resolved c _ _

theorem inv_ofConfig : Inv (State.ofConfig c h) :=
  ⟨memoryOk_ofConfig c h, sizesOk_ofConfig c h, bankOk_ofConfig c h, rtcOk_iff.2 (clockOk_fresh h.now),
    dma1Ok_ofConfig c h, dma2Ok_ofConfig c h, storageOk_ofConfig c h, overrideOk_ofConfig c h⟩

end

/-! ### Construction (R640) -/

/-- Every invariant is kept by every move. -/
theorem Move.inv {s t : State} (h : Move s t) (hs : Inv s) : Inv t := by
  obtain ⟨memory, sizes, bank, clock, dma1, dma2, storage, override⟩ := hs
  exact ⟨h.memoryOk memory, h.sizesOk sizes, h.bankOk bank, h.rtcOk clock, h.dma1Ok dma1, h.dma2Ok dma2,
    h.storageOk storage, h.overrideOk override⟩

theorem construct_eq_next {c : Config} {h : HostIn} {f : SaveFile} {s : State}
    (hs : construct c h f = .next s) :
    constructionRefusal c = none ∧ ∃ t, callLoad f (State.ofConfig c h) = .next t ∧ s = afterCall t := by
  unfold construct at hs
  split at hs
  · cases hs
  · obtain ⟨t, ht, hst⟩ := bindR_eq_next.1 hs
    cases hst
    exact ⟨‹_›, t, ht, rfl⟩

theorem inv_construct {c : Config} {h : HostIn} {f : SaveFile} {s : State} (hs : construct c h f = .next s) :
    Inv s := by
  obtain ⟨-, t, ht, rfl⟩ := construct_eq_next hs
  exact (Move.load f _ t ht).inv (inv_ofConfig c h)

/-- Construction leaves every element at its reset value but for those that `load` sets. -/
theorem construct_frame {c : Config} {h : HostIn} {f : SaveFile} {s : State}
    (hs : construct c h f = .next s) :
    s = { State.ofConfig c h with
      loadable := false, draws := s.draws, g1.rtc := s.g1.rtc, g1.nvs1 := s.g1.nvs1, g2.nvs2 := s.g2.nvs2 } := by
  obtain ⟨-, t, ht, rfl⟩ := construct_eq_next hs
  rw [callLoad_frame ht]
  rfl

/-! ### The I/O registers after construction (R642) -/

section
variable {c : Config} {h : HostIn} {f : SaveFile} {s : State} (hs : construct c h f = .next s)
include hs

/-- The CPU reaches every register that the block owns: no engine is under way, and none is gated. -/
theorem open1_construct (g : c.gen = .gen1) {a : Half} (ha : ownsIo a = true) : Open1 s a := by
  have hframe := construct_frame hs
  have hcfg : s.cfg = c := by rw [hframe]; rfl
  have hblocked : s.g1.blocked = .none := by rw [hframe]; rfl
  have hoam : s.g1.oamDma.state = .inactive := by rw [hframe]; rfl
  have hvdma : s.g1.vdma.state = .inactive := by rw [hframe]; rfl
  have hfree : ¬ Gated s a := by
    obtain ⟨h1, -⟩ := ownsIo_range ha
    rintro ⟨-, ⟨-, ⟨-, hle⟩ | ⟨-, rfl | rfl⟩⟩ | ⟨-, -, hle⟩⟩
    · bv_omega
    · exact absurd ha (by decide)
    · exact absurd ha (by decide)
    · bv_omega
  have hgate : gated1 s a = false := Bool.eq_false_iff.2 (hfree ∘ gated1_iff.1)
  refine ⟨hcfg ▸ g, hcfg ▸ (construct_eq_next hs).1, ?_, ?_⟩
  · rintro (⟨g2, -⟩ | ⟨-, -, hv⟩)
    · rw [hcfg, g] at g2; cases g2
    · rw [hvdma] at hv; cases hv
  · simp [heldBack, oamBlocked, busBlocked, hblocked, hoam, hgate]

theorem cpuRead8_construct (g : c.gen = .gen1) {a : Half} {v : Byte} (ha : ownsIo a = true)
    (hv : ownedRead a s = v) : cpuRead8 (gbAddr a) s = .next (gave (byte v) s) :=
  hv ▸ cpuRead8_owned (open1_construct hs g ha) ha

theorem open2_construct (g : c.gen = .gen2) : Open2 s := by
  have hframe := construct_frame hs
  have hcfg : s.cfg = c := by rw [hframe]; rfl
  refine ⟨hcfg ▸ g, hcfg ▸ (construct_eq_next hs).1, ?_⟩
  rintro (⟨-, k, hk⟩ | ⟨g1, -⟩)
  · rw [hframe] at hk
    cases k <;> cases hk
  · rw [hcfg, g] at g1; cases g1

theorem cntH_construct (k : Chan) : (chan s k).cntH.value = 0 := by
  rw [construct_frame hs]
  cases k <;> rfl

end

/-! ### The statements -/

/-- Settles O12: reset values meet the invariants and `load` is a move, which leaves the registers alone. -/
theorem constructionLeavesResetState : Obligations.ConstructionLeavesResetState := by
  intro c h f s hs
  have hframe := construct_frame hs
  have hcfg : s.cfg = c := by rw [hframe]; rfl
  refine ⟨inv_construct hs, fun g => ⟨?_, ?_, ?_⟩, fun g k => ?_⟩
  · have hreg : s.g1.oamDma.reg = 0xFF := by rw [hframe]; rfl
    have hstatus : readHdma5 s = 0xFF := by
      have hv : s.g1.vdma = .reset := by rw [hframe]; rfl
      rw [readHdma5, hv]
      exact ite_self _
    have hread {a : Half} (ha : ownsIo a = true) (hv : ownedRead a s = 0xFF) :
        cpuRead8 (gbAddr a) s = .next (gave 0xFF s) := cpuRead8_construct hs g ha hv
    simp only [List.forall_mem_cons]
    exact ⟨hread (a := 0xFF46) rfl hreg, hread (a := 0xFF50) rfl rfl, hread (a := 0xFF51) rfl rfl,
      hread (a := 0xFF52) rfl rfl, hread (a := 0xFF53) rfl rfl, hread (a := 0xFF54) rfl rfl,
      hread (a := 0xFF55) rfl hstatus, nofun⟩
  · have hbank : s.g1.vbk = 0 := by rw [hframe]; rfl
    refine (cpuRead8_construct hs g (a := 0xFF4F) rfl rfl).trans ?_
    rw [show ownedRead 0xFF4F s = readVbk s from rfl, byte_readVbk, hcfg, hbank]
    rfl
  · have hbank : s.g1.svbk = 0 := by rw [hframe]; rfl
    refine (cpuRead8_construct hs g (a := 0xFF70) rfl rfl).trans ?_
    rw [show ownedRead 0xFF70 s = readSvbk s from rfl, byte_readSvbk, hcfg, hbank]
    rfl
  · obtain ⟨-, -, -, -, -, hdma2, -⟩ := inv_construct hs
    obtain ⟨hcontrol, -⟩ :=
      readsChannel_of (open2By_cpu (open2_construct hs g)) hdma2 (fun off w => exec_dmaReadRow k off w s) 10
    obtain ⟨hhalf, -⟩ := hcontrol rfl
    rw [hhalf, cntH_construct hs k]
    rfl

/-- Settles O13: the reset values of the standard parameters are those of `State.reset`, and construction is
`load` under the mark of R550. -/
theorem resetIsConstructed : Obligations.ResetIsConstructed := by
  have hreset : State.ofConfig Config.standard State.reset.host = State.reset := rfl
  refine ⟨hreset, hreset ▸ inv_ofConfig _ _, fun c h f i hc hi => ?_⟩
  have hload : exec i (State.ofConfig c h) = callLoad f (State.ofConfig c h) := by
    obtain rfl | rfl := hi <;> rfl
  rw [hload, construct, hc]
  cases callLoad f (State.ofConfig c h) <;> rfl

end Sys2Proof.Machine
end

section
/-! PROOFS. The save files of generation 2 (48_persistence.md R560 to R564, R567, R569): the variant that `load`
makes, by the override or by the file's size, and the bytes that `serialize` gives back. -/
namespace Sys2Proof.Machine

open Sys2Proof.Safety Sys2Proof.Claims

/-! ### Variants and sizes (R561 to R563) -/

theorem variantSize_eq_fileSize (v : SaveVariant) : variantSize v = fileSize v := by cases v <;> rfl

theorem sizeClass_fileSize (v : SaveVariant) : sizeClass (fileSize v) = some v := by cases v <;> rfl

/-- The variant made of bytes of its size is the device just created with them. -/
theorem variantOf_eq_device {c : Config} {v : SaveVariant} {m : Image} (hm : m.size = fileSize v) :
    variantOf c v m = device c v m := by
  cases v with
  | batteryRam | eeprom6 | eeprom14 => rfl
  | flash64 | flash128 => simp [variantOf, freshFlash, device, hm, fileSize]

/-- A fresh variant is filled with 0xFF, but for the drawn battery RAM (R563). -/
theorem read_freshBytes {v : SaveVariant} (hv : v ≠ .batteryRam) (tag x : Nat) :
    (freshBytes v tag).read x = 0xFF := by
  have filled (n : Nat) : (Image.filled n 0xFF).read x = 0xFF := by
    by_cases hx : x < n
    · exact Image.read_filled hx _
    · exact Image.read_beyond (Nat.not_lt.1 hx)
  cases v with
  | batteryRam => exact absurd rfl hv
  | eeprom6 | eeprom14 | flash64 | flash128 => exact filled _

/-- A file of a variant's size is that variant's, unless the override is another. -/
theorem chosenVariant_of_size {s : State} {n : Nat} {v : SaveVariant}
    (ho : s.cfg.saveOverride = none ∨ s.cfg.saveOverride = some v) (hn : n = fileSize v) :
    chosenVariant s n = some v := by
  unfold chosenVariant
  obtain ho | ho := ho <;> rw [ho, hn]
  · exact sizeClass_fileSize v
  · exact if_pos (variantSize_eq_fileSize v).symm

/-- A file of no size that the override allows is no variant's. -/
theorem chosenVariant_eq_none {s : State} {n : Nat}
    (h : ∀ v, s.cfg.saveOverride = none ∨ s.cfg.saveOverride = some v → n ≠ fileSize v) :
    chosenVariant s n = none := by
  cases hv : chosenVariant s n with
  | none => rfl
  | some v =>
    have hsize : n = fileSize v := (chosenVariant_size hv).trans (variantSize_eq_fileSize v)
    refine absurd hsize (h v ?_)
    unfold chosenVariant at hv
    split at hv
    · exact .inl ‹_›
    · split at hv <;> cases hv
      exact .inr ‹_›

/-! ### The calls -/

theorem callLoad_gen2 {s : State} (g : s.cfg.gen = .gen2) (hl : s.loadable = true) (f : SaveFile) :
    callLoad f s = load2 f s := by
  rw [callLoad, if_neg (by rw [hl]; decide), g]

theorem load2_bytes {s : State} {l : List Byte} {v : SaveVariant}
    (ho : s.cfg.saveOverride = none ∨ s.cfg.saveOverride = some v) (hl : l.length = fileSize v) :
    load2 (.bytes l) s = .next (withVariant s (device s.cfg v (.ofBytes l))) := by
  have hm : (Image.ofBytes l).size = fileSize v := hl
  rw [load2, loadBytes2, chosenVariant_of_size ho hl]
  dsimp only
  rw [variantOf_eq_device hm]
  rfl

theorem load2_absent {s : State} {v : SaveVariant} (ho : s.cfg.saveOverride = some v) :
    load2 .absent s = .next { withVariant s (device s.cfg v (freshBytes v s.draws)) with
      draws := s.draws + 1 } := by
  have hm : (freshBytes v s.draws).size = fileSize v :=
    (freshBytes_size v _).trans (variantSize_eq_fileSize v)
  rw [load2, loadNoFile2, ho]
  dsimp only
  rw [variantOf_eq_device hm]
  rfl

theorem callSerialize_gen2 {s : State} (g : s.cfg.gen = .gen2) (w : Bool) :
    callSerialize w s
      = if w = false ∧ (serialize2 s).isSome = true then .fault .storageIoError
        else .next { s with result := .file (serialize2 s) } := by
  simp only [callSerialize, serializeFile, g]
  rfl

theorem serialize2_eq_none {s : State}
    (h : s.g2.nvs2 = .unresolved ∨ ∃ e, s.g2.nvs2 = .eeprom e ∧ e.addrBits = .unknown) :
    serialize2 s = none := by
  unfold serialize2
  obtain h | ⟨e, h, hb⟩ := h <;> rw [h]
  exact if_pos hb

theorem serialize2_eq_some {s : State} {m : Image}
    (h : s.g2.nvs2 = .batteryRam m ∨ (∃ e, s.g2.nvs2 = .eeprom e ∧ e.addrBits ≠ .unknown ∧ m = e.bytes)
      ∨ ∃ f, s.g2.nvs2 = .flash f ∧ m = f.bytes) : serialize2 s = some m := by
  unfold serialize2
  obtain h | ⟨e, h, hb, rfl⟩ | ⟨f, h, rfl⟩ := h <;> rw [h]
  exact if_neg hb

/-- Settles O59: the variant chosen is the override's or the size's, and what is given back is its bytes. -/
theorem gen2LoadAndSerialize : Obligations.Gen2LoadAndSerialize := by
  intro s l g
  refine ⟨fun hload => ?_, fun w hn => ?_, fun m hm => ?_⟩
  · have row (f : SaveFile) : exec (.loadGen2 f) s = load2 f s := callLoad_gen2 g hload f
    refine ⟨row _, fun ho => ?_, fun v ho => ⟨freshBytes v s.draws, ?_, fun hv => ?_, ?_⟩,
      fun v ho hl => ⟨.ofBytes l, Image.toList_ofBytes l, ?_⟩, fun h => ?_⟩
    · rw [row, load2, loadNoFile2, ho]
      rfl
    · exact (freshBytes_size v _).trans (variantSize_eq_fileSize v)
    · exact read_freshBytes hv _
    · rw [row, load2_absent ho]
    · rw [row, load2_bytes ho hl]
    · rw [row, load2, loadBytes2, chosenVariant_eq_none h]
  · refine (callSerialize_gen2 g w).trans ?_
    rw [serialize2_eq_none hn, if_neg (by simp)]
  · have hfile := serialize2_eq_some hm
    refine ⟨(callSerialize_gen2 g true).trans ?_, (callSerialize_gen2 g false).trans ?_⟩
    · rw [hfile, if_neg (by simp)]
    · rw [hfile, if_pos ⟨rfl, rfl⟩]

end Sys2Proof.Machine
end

section
/-! PROOFS. `load` on generation 1 (48_persistence.md R551, R554 to R556, R559, R569): the fields of the file's
trailer, their ranges, and the clock that they set. -/
namespace Sys2Proof.Machine

open Sys2Proof.Claims

/-! ### The fields of a file (R554) -/

/-- A field by its lowest byte first. -/
theorem fileField_succ_low (l : List Byte) (o n : Nat) :
    fileField l o (n + 1) = (l[o]?.getD 0).toNat + 256 * fileField l (o + 1) n := by
  induction n with
  | zero => simp [fileField]
  | succ n ih =>
    rw [fileField, ih, fileField, Nat.mul_add, Nat.add_assoc, Nat.add_right_comm o 1 n, Nat.add_assoc o n 1]
    ring

theorem fileField_lt (l : List Byte) (o n : Nat) : fileField l o n < 256 ^ n := by
  induction n with
  | zero => exact Nat.one_pos
  | succ n ih =>
    have hbyte := (l[o + n]?.getD 0).isLt
    have := Nat.mul_le_mul_right (256 ^ n) (Nat.le_of_lt_succ hbyte)
    rw [fileField, Nat.pow_succ]
    omega

theorem leNat_slice (l : List Byte) (o n : Nat) : leNat (slice l o n) = fileField l o n := by
  induction n generalizing o with
  | zero => simp [slice, leNat, fileField]
  | succ n ih =>
    rw [fileField_succ_low, ← ih, slice, slice]
    by_cases ho : o < l.length
    · rw [List.drop_eq_getElem_cons ho, List.take_succ_cons, leNat, List.getElem?_eq_getElem ho]
      rfl
    · have hnil (i : Nat) (hi : o ≤ i) : l.drop i = [] := List.drop_eq_nil_of_le (by omega)
      rw [hnil o le_rfl, hnil (o + 1) (by omega), List.getElem?_eq_none (Nat.not_lt.1 ho)]
      simp [leNat]

section
variable (l : List Byte) (b : Nat)

/-- A field of the trailer is one of the file. -/
theorem leNat_slice_drop (o n : Nat) : leNat (slice (l.drop b) o n) = fileField l (b + o) n := by
  rw [← leNat_slice, slice, slice, List.drop_drop]

theorem field4_drop (o : Nat) : field4 (l.drop b) o = fileField l (b + o) 4 := leNat_slice_drop l b o 4

/-! ### Their ranges (R555) -/

/-- A flags field has no bit but those of the day's bit 8, of the halt and of the carry. -/
theorem and_flags_eq_self_iff {n : Nat} :
    n &&& 0xC1 = n ↔ ∃ d h c : Nat, d ≤ 1 ∧ h ≤ 1 ∧ c ≤ 1 ∧ n = d + 0x40 * h + 0x80 * c := by
  constructor
  · intro hn
    have byte : ∀ x : Byte, x &&& 0xC1 = x →
        x.toNat = x.toNat % 2 + 0x40 * (x.toNat / 0x40 % 2) + 0x80 * (x.toNat / 0x80 % 2) := by decide
    have hle : n ≤ 0xC1 := hn ▸ Nat.and_le_right
    have hx : (BitVec.ofNat 8 n).toNat = n := Nat.mod_eq_of_lt (by omega)
    have hflags := byte (BitVec.ofNat 8 n) (BitVec.eq_of_toNat_eq (by rw [BitVec.toNat_and, hx]; exact hn))
    rw [hx] at hflags
    exact ⟨n % 2, n / 0x40 % 2, n / 0x80 % 2, by omega, by omega, by omega, hflags⟩
  · rintro ⟨d, h, c, hd, hh, hc, rfl⟩
    interval_cases d <;> interval_cases h <;> interval_cases c <;> rfl

theorem fieldsInRange_iff (o : Nat) : fieldsInRange (l.drop b) o = true ↔
    fileField l (b + o) 4 ≤ 59 ∧ fileField l (b + o + 4) 4 ≤ 59 ∧ fileField l (b + o + 8) 4 ≤ 23
      ∧ fileField l (b + o + 12) 4 ≤ 255
      ∧ ∃ d h c : Nat, d ≤ 1 ∧ h ≤ 1 ∧ c ≤ 1 ∧ fileField l (b + o + 16) 4 = d + 0x40 * h + 0x80 * c := by
  simp only [fieldsInRange, field4_drop, Bool.and_eq_true, decide_eq_true_eq, and_flags_eq_self_iff, and_assoc,
    Nat.add_assoc]

theorem trailerInRange_iff :
    TrailerInRange l b ↔ fieldsInRange (l.drop b) 0 = true ∧ fieldsInRange (l.drop b) 0x14 = true := by
  rw [fieldsInRange_iff, fieldsInRange_iff]
  exact forall_eq_or_imp.trans (and_congr_right fun _ => forall_eq)

/-! ### The clock that they set (R556) -/

theorem trailerStamp_eq : trailerStamp (l.drop b) = fileInstant l (b + 0x28) := by
  have hlt := fileField_lt l (b + 0x28) 8
  rw [trailerStamp, leNat_slice_drop, fileInstant, BitVec.toInt_eq_toNat_cond, BitVec.toNat_ofNat]
  generalize fileField l (b + 0x28) 8 = n at hlt
  norm_num at hlt ⊢
  rw [Nat.mod_eq_of_lt hlt]
  split <;> split <;> omega

/-- The day count of a days field in range and a flags field. -/
theorem daysOf_eq {o : Nat} (hd : fileField l (b + o + 12) 4 ≤ 255) :
    daysOf (field4 (l.drop b) (o + 12)) (field4 (l.drop b) (o + 16)) = trailerDays l (b + o) := by
  rw [daysOf, field4_drop, field4_drop, trailerDays, Nat.testBit_eq_decide_div_mod_eq, ← Nat.add_assoc, ← Nat.add_assoc,
    Nat.mod_eq_of_lt (by omega)]
  obtain h | h := Nat.mod_two_eq_zero_or_one (fileField l (b + o + 16) 4) <;> simp [h]

/-- The clock that a trailer in range sets. -/
theorem rtcLoad_eq (h : TrailerInRange l b) (now : Int) :
    rtcLoad (l.drop b) now =
      { reference := (if decide (fileField l (b + 16) 4 / 0x40 % 2 = 1) = true then now
            else min (fileInstant l (b + 0x28)) now)
          - (fileField l b 4 + 60 * fileField l (b + 4) 4 + 3600 * fileField l (b + 8) 4
              + 86400 * trailerDays l b : Nat)
        haltedInstant := now
        halted := decide (fileField l (b + 16) 4 / 0x40 % 2 = 1)
        carry := decide (fileField l (b + 16) 4 / 0x80 % 2 = 1)
        latched := { s := fileField l (b + 0x14) 4, m := fileField l (b + 0x18) 4,
                     h := fileField l (b + 0x1C) 4, d := trailerDays l (b + 0x14) } } := by
  obtain ⟨-, -, -, hrunning, -⟩ := h b (.inl rfl)
  obtain ⟨-, -, -, hlatched, -⟩ := h (b + 0x14) (.inr rfl)
  have hhalted : trailerHalted (l.drop b) = decide (fileField l (b + 16) 4 / 0x40 % 2 = 1) := by
    rw [trailerHalted, field4_drop, Nat.testBit_eq_decide_div_mod_eq]
  have helapsed : trailerElapsed (l.drop b) = fileField l b 4 + 60 * fileField l (b + 4) 4
      + 3600 * fileField l (b + 8) 4 + 86400 * trailerDays l b := by
    rw [trailerElapsed, field4_drop, field4_drop, field4_drop]
    exact congrArg (_ + 86400 * ·) (daysOf_eq l b (o := 0) hrunning)
  have hsnapshot : trailerLatched (l.drop b) =
      { s := fileField l (b + 0x14) 4, m := fileField l (b + 0x18) 4, h := fileField l (b + 0x1C) 4,
        d := trailerDays l (b + 0x14) } := by
    rw [trailerLatched, field4_drop, field4_drop, field4_drop, daysOf_eq l b (o := 0x14) hlatched]
  rw [rtcLoad, trailerBase, hhalted, helapsed, hsnapshot, trailerStamp_eq, field4_drop,
    Nat.testBit_eq_decide_div_mod_eq]

end

/-! ### The calls (R551) -/

theorem saveBase_eq_ramPart (s : State) : saveBase s.cfg.cart = ramPart s := rfl

theorem freshClock_fresh (s : State) : FreshClock s (.fresh s.host.now) := ⟨rfl, rfl, rfl, rfl, rfl⟩

section
variable {s : State} (g : s.cfg.gen = .gen1) (hl : s.loadable = true)
include g hl

theorem callLoad_gen1 (f : SaveFile) : callLoad f s = load1 f s := by
  rw [callLoad, if_neg (by rw [hl]; decide), g]

theorem exec_loadGen1_battery (hb : s.cfg.cart.hasBattery = true) (l : List Byte) :
    exec (.loadGen1 (.bytes l)) s = loadBytes1 l s := by
  refine (callLoad_gen1 g hl _).trans ?_
  rw [load1, if_neg (by rw [hb]; decide)]

end

theorem loadBytes1_trailer {l : List Byte} {s : State} (hr : s.cfg.cart.hasRtc = true)
    (hl : l.length = ramPart s + 0x30) : loadBytes1 l s = loadTrailer l s := by
  rw [loadBytes1, saveBase_eq_ramPart, if_neg (by omega), if_pos ⟨hr, hl⟩]

theorem loadTrailer_inRange {l : List Byte} {s : State} (h : TrailerInRange l (ramPart s)) :
    loadTrailer l s = .next (withRam1
      (with1 s { s.g1 with rtc := rtcLoad (l.drop (ramPart s)) s.host.now }) (.ofBytes (l.take (ramPart s)))) := by
  rw [loadTrailer, saveBase_eq_ramPart, if_pos ((trailerInRange_iff _ _).1 h)]
  rfl

/-- Settles O57: by the checks of `load` in their order, and the clock that a trailer in range sets. -/
theorem gen1Load : Obligations.Gen1Load := by
  intro s l g hload
  dsimp only
  have row (f : SaveFile) : exec (.loadGen1 f) s = load1 f s := callLoad_gen1 g hload f
  refine ⟨fun hb => ⟨?_, ?_⟩, fun hb => ?_⟩
  · rw [row, load1, if_pos hb]
  · rw [row, load1, if_pos hb]
  have battery : ¬ s.cfg.cart.hasBattery = false := by rw [hb]; decide
  have bytes := exec_loadGen1_battery g hload hb l
  refine ⟨⟨drawn (ramPart s) s.draws, .fresh s.host.now, rfl, freshClock_fresh s, ?_⟩, ?_, fun hlen => ?_,
    fun hlen hno => ?_, fun hr hlen hout => ?_, fun hr hlen hin => ?_⟩
  · rw [row, load1, if_neg battery]
    rfl
  · rw [row, load1, if_neg battery]
  · refine ⟨.ofBytes l, .fresh s.host.now, Image.toList_ofBytes l, freshClock_fresh s, ?_⟩
    rw [bytes, loadBytes1, saveBase_eq_ramPart, if_pos hlen]
    rfl
  · rw [bytes, loadBytes1, saveBase_eq_ramPart, if_neg hlen, if_neg hno]
  · rw [bytes, loadBytes1_trailer hr hlen, loadTrailer, saveBase_eq_ramPart,
      if_neg (mt (trailerInRange_iff _ _).2 hout)]
  · refine ⟨.ofBytes (l.take (ramPart s)), rtcLoad (l.drop (ramPart s)) s.host.now, Image.toList_ofBytes _, ?_, ?_⟩
    · rw [bytes, loadBytes1_trailer hr hlen, loadTrailer_inRange hin]
    · rw [rtcLoad_eq _ _ hin]
      exact ⟨rfl, rfl, rfl, rfl, rfl⟩

end Sys2Proof.Machine
end

section
/-! PROOFS. `serialize` on generation 1 (48_persistence.md R552, R554, R555, R557): the array with more bytes put
after it, the trailer of a clock byte by byte, and the file. -/
namespace Sys2Proof

/-! ### An array followed by more bytes (log 3) -/

@[simp] theorem Image.append_size (m : Image) (l : List Byte) : (m.append l).size = m.size + l.length := rfl

theorem Image.pairwise_append {m : Image} (h : m.wf = true) (l : List Byte) :
    (m.append l).cells.Pairwise fun c d => c.1 < d.1 := by
  obtain ⟨hp, hin⟩ := (Image.wf_iff m).1 h
  refine List.pairwise_append.2 ⟨hp, pairwise_cellsFrom _ _ _, fun c hc d hd => ?_⟩
  exact Nat.lt_of_lt_of_le (hin c hc).1 (cellsFrom_range hd).1

theorem Image.read_append_left {m : Image} (h : m.wf = true) (l : List Byte) {i : Nat} (hi : i < m.size) :
    (m.append l).read i = m.read i := by
  have hl : lookupCell (m.append l).cells i = lookupCell m.cells i :=
    lookupCell_congr (Image.pairwise_append h l) ((Image.wf_iff m).1 h).1 fun v =>
      List.mem_append.trans (or_iff_left fun hv => Nat.not_lt.2 (cellsFrom_range hv).1 hi)
  rw [Image.read, hl, Image.append_size, if_pos (by omega), Image.read, if_pos hi]
  rfl

theorem Image.read_append_right {m : Image} (h : m.wf = true) {l : List Byte} {i : Nat} {v : Byte}
    (hv : l[i]? = some v) : (m.append l).read (m.size + i) = v := by
  obtain ⟨hi, hget⟩ := List.getElem?_eq_some_iff.1 hv
  have hl : lookupCell (m.append l).cells (m.size + i) = lookupCell (cellsFrom m.fill m.size l) (m.size + i) :=
    lookupCell_congr (Image.pairwise_append h l) (pairwise_cellsFrom _ _ _) fun w =>
      List.mem_append.trans (or_iff_right fun hw =>
        Nat.not_lt.2 (Nat.le_add_right _ _) (((Image.wf_iff m).1 h).2 _ hw).1)
  rw [Image.read, hl, Image.append_size, if_pos (by omega), ← hget]
  refine (lookupCell_cellsFrom m.fill l m.size (m.size + i)).trans ?_
  rw [dif_pos (by omega)]
  exact getElem_congr_idx (Nat.add_sub_cancel_left _ _)

namespace Machine

open Sys2Proof.Safety Sys2Proof.Claims

/-! ### The trailer, byte by byte (R554) -/

/-- The lowest bytes of five fields of the trailer; their other bytes are 0 (R555). -/
def fieldBytes (l : Latched) (halted carry : Bool) : List Byte :=
  [BitVec.ofNat 8 l.s, BitVec.ofNat 8 l.m, BitVec.ofNat 8 l.h, BitVec.ofNat 8 l.d, dhByte l.d halted carry]

/-- The lowest bytes of the ten fields of a clock's trailer. -/
def trailerBytes (r : Rtc) (now : Int) : List Byte :=
  fieldBytes (rtcSnapshot r now) r.halted r.carry ++ fieldBytes r.latched r.halted r.carry

theorem trailerOf_eq (r : Rtc) (now : Int) :
    trailerOf r now = (trailerBytes r now).flatMap pad4 ++ le64 (BitVec.ofInt 64 now) := rfl

theorem getElem?_flatMap_pad4 (l : List Byte) (j i : Nat) (hi : i < 4) :
    (l.flatMap pad4)[4 * j + i]? = l[j]?.map fun b => if i = 0 then b else 0 := by
  induction l generalizing j with
  | nil => rfl
  | cons b l ih =>
    cases j with
    | zero => interval_cases i <;> rfl
    | succ j =>
      rw [List.flatMap_cons, List.getElem?_append_right (by simp [pad4]; omega), List.getElem?_cons_succ, ← ih j]
      congr 1
      simp only [pad4, List.length_cons, List.length_nil]
      omega

theorem getElem?_trailerOf (r : Rtc) (now : Int) {j i : Nat} (hj : j < 10) (hi : i < 4) :
    (trailerOf r now)[4 * j + i]? = (trailerBytes r now)[j]?.map fun b => if i = 0 then b else 0 := by
  have hlen : ((trailerBytes r now).flatMap pad4).length = 40 := rfl
  rw [trailerOf_eq, List.getElem?_append_left (by omega), getElem?_flatMap_pad4 _ j i hi]

theorem getElem?_le64 (x : BitVec 64) {i : Nat} (hi : i < 8) :
    (le64 x)[i]? = some (BitVec.ofNat 8 (x.toNat / 256 ^ i)) := by
  have hlow : x.setWidth 32 = BitVec.ofNat 32 x.toNat := BitVec.eq_of_toNat_eq (by simp)
  have hhigh : x.extractLsb' 32 32 = BitVec.ofNat 32 (x.toNat / 2 ^ 32) :=
    BitVec.eq_of_toNat_eq (by simp [Nat.shiftRight_eq_div_pow])
  rw [le64, hlow, hhigh]
  interval_cases i <;>
    exact congrArg some (BitVec.eq_of_toNat_eq (by
      simp only [BitVec.toNat_setWidth, BitVec.extractLsb'_toNat, BitVec.toNat_ofNat, Nat.shiftRight_eq_div_pow]
      omega))

/-- The bytes of the timestamp: of the instant, two's complement (log 27). -/
theorem getElem?_trailerOf_stamp (r : Rtc) (now : Int) {i : Nat} (hi : i < 8) :
    ∃ b, (trailerOf r now)[0x28 + i]? = some b ∧ (b.toNat : Int) = now / 256 ^ i % 256 := by
  have hlen : ((trailerBytes r now).flatMap pad4).length = 40 := rfl
  have hstamp : ((BitVec.ofInt 64 now).toNat : Int) = now % 2 ^ 64 := by
    rw [BitVec.toNat_ofInt]
    exact Int.toNat_of_nonneg (Int.emod_nonneg _ (by decide))
  refine ⟨BitVec.ofNat 8 ((BitVec.ofInt 64 now).toNat / 256 ^ i), ?_, ?_⟩
  · rw [trailerOf_eq, List.getElem?_append_right (by omega), hlen, Nat.add_sub_cancel_left, getElem?_le64 _ hi]
  · rw [BitVec.toNat_ofNat]
    generalize (BitVec.ofInt 64 now).toNat = n at hstamp
    interval_cases i <;> omega

theorem flagsByte_lt (d : Nat) (halted carry : Bool) : flagsByte d halted carry < 256 := by
  unfold flagsByte
  split <;> split <;> omega

/-- The values of the bytes of five fields in range. -/
theorem map_toNat_fieldBytes {l : Latched} (h : LatchedOk l) (halted carry : Bool) :
    (fieldBytes l halted carry).map BitVec.toNat = [l.s, l.m, l.h, l.d % 256, flagsByte l.d halted carry] := by
  obtain ⟨hs, hm, hh, -⟩ := h
  have hflags : (dhByte l.d halted carry).toNat = flagsByte l.d halted carry := by
    rw [dhByte_eq]
    exact Nat.mod_eq_of_lt (flagsByte_lt l.d halted carry)
  simp only [fieldBytes, List.map_cons, List.map_nil, BitVec.toNat_ofNat, hflags, List.cons.injEq, and_true]
  omega

/-! ### The file (R552) -/

theorem ramByte_eq_savedRam (s : State) (x : Nat) : ramByte s x = (savedRam s).read x := by
  unfold ramByte savedRam
  cases s.g1.nvs1 with
  | none => exact (Image.read_beyond (Nat.zero_le x)).symm
  | some n => rfl

theorem savedRam_wf {s : State} (hm : MemoryOk s) : (savedRam s).wf = true := by
  obtain ⟨⟨-, -, -, -, hram⟩, -⟩ := memoryOk_iff.1 hm
  unfold savedRam
  cases hn : s.g1.nvs1 with
  | none => exact Image.filled_wf _ _
  | some n => exact hram n hn

theorem savedRam_size {s : State} (hs : SizesOk s) : (savedRam s).size = ramPart s := by
  obtain ⟨-, -, -, -, hram, -⟩ := hs
  unfold ramSized at hram
  unfold savedRam ramPart
  split at hram
  · obtain ⟨n, hn, hsize⟩ := hram
    rw [hn, if_pos ‹_›]
    exact hsize
  rw [if_neg ‹_›]
  split at hram
  · rw [hram]
    exact Eq.symm ‹_›
  · obtain ⟨n, hn, hsize⟩ := hram
    rw [hn]
    exact hsize

theorem savedRam_normalizedFor (s : State) : savedRam (normalizedFor s) = savedRam s := by
  rw [normalizedFor_frame]; rfl

/-- The file of a cartridge with a battery. -/
def savedFile (s : State) : Image := (savedRam s).append (saveTail (normalizedFor s))

section
variable {s : State} (g : s.cfg.gen = .gen1)
include g

theorem callSerialize_gen1 (w : Bool) : callSerialize w s
    = if w = false ∧ (serialize1 s).1.isSome = true then .fault .storageIoError
      else .next (setResult (.file (serialize1 s).1) (serialize1 s).2) := by
  simp only [callSerialize, serializeFile, g]

theorem callSerialize_noBattery (hb : s.cfg.cart.hasBattery = false) (w : Bool) :
    callSerialize w s = .next { s with result := .file none } := by
  have hfile : serialize1 s = (none, s) := by rw [serialize1, if_pos hb]
  rw [callSerialize_gen1 g, hfile, if_neg (by simp)]
  rfl

theorem callSerialize_battery (hb : s.cfg.cart.hasBattery = true) (w : Bool) : callSerialize w s
    = if w = false then .fault .storageIoError
      else .next { with1 s { s.g1 with rtc := (normalizedFor s).g1.rtc } with
        result := .file (some (savedFile s)) } := by
  have hfile : serialize1 s = (some (savedFile s), normalizedFor s) := by
    rw [serialize1, if_neg (by rw [hb]; decide), savedRam_normalizedFor]
    rfl
  have hstate : setResult (.file (some (savedFile s))) (normalizedFor s)
      = { with1 s { s.g1 with rtc := (normalizedFor s).g1.rtc } with result := .file (some (savedFile s)) } := by
    rw [normalizedFor_frame]
    rfl
  rw [callSerialize_gen1 g, hfile, ← hstate]
  simp

end

/-! ### The clock in the file (R557) -/

section
variable {s : State} (hr : s.cfg.cart.hasRtc = true)
include hr

theorem normalizedFor_rtc : (normalizedFor s).g1.rtc = rtcNormalize (nowOf s) s.g1.rtc := by
  rw [normalizedFor, if_pos hr]
  rfl

theorem saveTail_clock :
    saveTail (normalizedFor s) = trailerOf (rtcNormalize (nowOf s) s.g1.rtc) s.host.now := by
  have hhost : (normalizedFor s).host = s.host := by rw [normalizedFor_frame]; rfl
  rw [saveTail, normalizedFor_cfg, if_pos hr, normalizedFor_rtc hr, hhost]

end

/-- The running fields, the snapshot and the flags, as the trailer of the normalised clock holds them. -/
theorem map_toNat_trailerBytes {s : State} (hok : RtcOk s) :
    let e := elapsedOf s
    let l := s.g1.rtc.latched
    let carry := s.g1.rtc.carry || decide (512 ≤ e / 86400)
    let days := (unit e 86400 512).toNat
    (trailerBytes (rtcNormalize (nowOf s) s.g1.rtc) s.host.now).map BitVec.toNat
      = [(unit e 1 60).toNat, (unit e 60 60).toNat, (unit e 3600 24).toNat, days % 256,
         flagsByte days s.g1.rtc.halted carry, l.s, l.m, l.h, l.d % 256,
         flagsByte l.d s.g1.rtc.halted carry] := by
  obtain ⟨-, -, hlatched⟩ := rtcOk_iff.1 hok
  have hsnapshot : rtcSnapshot (rtcNormalize (nowOf s) s.g1.rtc) s.host.now = rtcSnapshot s.g1.rtc s.host.now :=
    rtcSnapshot_rtcNormalize s.host.now s.g1.rtc
  rw [trailerBytes, List.map_append, hsnapshot, rtcNormalize_eq]
  dsimp only
  rw [map_toNat_fieldBytes (latchedOk_rtcSnapshot _ _), map_toNat_fieldBytes hlatched]
  rfl

/-- After `Normalize()` less than a cycle of 512 days has passed (R415). -/
theorem normalElapsed_lt (s : State) : normalElapsed s < 86400 * 512 := by
  rw [normalElapsed_eq]
  split <;> omega

section
variable {s : State} (hm : MemoryOk s) (hs : SizesOk s) (hr : s.cfg.cart.hasRtc = true)
include hm hs hr

theorem savedFile_clock {i : Nat} {v : Byte}
    (h : (trailerOf (rtcNormalize (nowOf s) s.g1.rtc) s.host.now)[i]? = some v) :
    (savedFile s).read (ramPart s + i) = v := by
  rw [savedFile, saveTail_clock hr, ← savedRam_size hs]
  exact Image.read_append_right (savedRam_wf hm) h

theorem savedFile_stamp {i : Nat} (hi : i < 8) :
    (((savedFile s).read (ramPart s + 0x28 + i)).toNat : Int) = s.host.now / 256 ^ i % 256 := by
  obtain ⟨b, hb, hv⟩ := getElem?_trailerOf_stamp (rtcNormalize (nowOf s) s.g1.rtc) s.host.now hi
  rw [Nat.add_assoc, savedFile_clock hm hs hr hb, hv]

/-- A field of the trailer: a byte, then three of 0. -/
theorem savedFile_field {j : Nat} (hj : j < 10) :
    (∀ i, 1 ≤ i → i < 4 → (savedFile s).read (ramPart s + 4 * j + i) = 0)
    ∧ some ((savedFile s).read (ramPart s + 4 * j)).toNat
      = ((trailerBytes (rtcNormalize (nowOf s) s.g1.rtc) s.host.now).map BitVec.toNat)[j]? := by
  obtain ⟨b, hb⟩ : ∃ b, (trailerBytes (rtcNormalize (nowOf s) s.g1.rtc) s.host.now)[j]? = some b :=
    ⟨_, List.getElem?_eq_getElem hj⟩
  have hbyte {i : Nat} (hi : i < 4) :
      (savedFile s).read (ramPart s + (4 * j + i)) = if i = 0 then b else 0 := by
    refine savedFile_clock hm hs hr ?_
    rw [getElem?_trailerOf _ _ hj hi, hb, Option.map_some]
  refine ⟨fun i h1 hi => ?_, ?_⟩
  · rw [Nat.add_assoc, hbyte hi, if_neg (by omega)]
  · rw [List.getElem?_map, hb, show ramPart s + 4 * j = ramPart s + (4 * j + 0) from rfl, hbyte (by decide)]
    rfl

end

/-! ### The statement -/

theorem savedFile_size {s : State} (hs : SizesOk s) :
    (savedFile s).size = ramPart s + if s.cfg.cart.hasRtc then 0x30 else 0 := by
  rw [savedFile, Image.append_size, savedRam_size hs]
  cases hr : s.cfg.cart.hasRtc with
  | true => rw [saveTail_clock hr]; rfl
  | false =>
    rw [saveTail, normalizedFor_cfg, hr]
    rfl

theorem savedFile_ram {s : State} (hm : MemoryOk s) (hs : SizesOk s) {x : Nat} (hx : x < ramPart s) :
    (savedFile s).read x = ramByte s x := by
  rw [ramByte_eq_savedRam]
  exact Image.read_append_left (savedRam_wf hm) _ (savedRam_size hs ▸ hx)

/-- Settles O58: the file is the RAM's bytes and, with a clock, the trailer of the normalised clock. -/
theorem gen1Serialize : Obligations.Gen1Serialize := by
  intro s g hm hs hok
  refine ⟨fun hb w => callSerialize_noBattery g hb w, fun hb => (callSerialize_battery g hb false).trans (if_pos rfl),
    fun hb => ⟨savedFile s, (normalizedFor s).g1.rtc, (callSerialize_battery g hb true).trans (if_neg (by decide)),
      fun x hx => savedFile_ram hm hs hx, fun hr => ⟨?_, ?_⟩, fun hr => ?_⟩⟩
  · rw [normalizedFor, if_neg (by rw [hr]; decide)]
  · rw [savedFile_size hs, hr]
    rfl
  · have helapsed : elapsedOf (with1 s { s.g1 with rtc := (normalizedFor s).g1.rtc }) = normalElapsed s := by
      rw [normalizedFor_rtc hr]
      rfl
    have hfields : ∀ j < 10, _ := fun j hj => savedFile_field hm hs hr (j := j) hj
    rw [map_toNat_trailerBytes hok] at hfields
    rw [helapsed, normalizedFor_rtc hr, rtcNormalize_eq]
    refine ⟨?_, rfl, rfl, rfl, rfl, rfl, normalElapsed_lt s, fun i hi => savedFile_stamp hm hs hr hi, hfields⟩
    rw [savedFile_size hs, if_pos hr]

end Machine

end Sys2Proof
end

section
/-! PROOFS. A saved file loaded again (48_persistence.md R558, R568): what its fields hold as the file of bytes that
`load` reads, and what is back in a block of the same parameters. -/
namespace Sys2Proof.Machine

open Sys2Proof.Safety Sys2Proof.Claims

/-! ### The bytes of an array as a file -/

theorem toList_length (m : Image) : m.toList.length = m.size := by simp [Image.toList]

theorem getElem?_toList {m : Image} {i : Nat} (hi : i < m.size) : m.toList[i]? = some (m.read i) := by
  simp [Image.toList, hi]

theorem fileField_toList {m : Image} {o n : Nat} (h : o + n ≤ m.size) :
    fileField m.toList o n = leValue m o n := by
  induction n with
  | zero => rfl
  | succ n ih => rw [fileField, leValue, ih (by omega), getElem?_toList (by omega), Option.getD_some]

/-- A field whose upper bytes are 0 is its lowest byte. -/
theorem fileField_pad4 {m : Image} {o : Nat} (h : o + 4 ≤ m.size)
    (hz : ∀ i, 1 ≤ i → i < 4 → m.read (o + i) = 0) : fileField m.toList o 4 = (m.read o).toNat := by
  rw [fileField_toList h]
  simp [leValue, hz 1 le_rfl (by decide), hz 2 (by decide) (by decide), hz 3 (by decide) (by decide)]

/-- Bytes that are the base-256 digits of a number hold it, cut to their count. -/
theorem leValue_of_digits {m : Image} {o n : Nat} {x : Int}
    (h : ∀ i < n, ((m.read (o + i)).toNat : Int) = x / 256 ^ i % 256) : (leValue m o n : Int) = x % 256 ^ n := by
  induction n with
  | zero => simp [leValue]
  | succ n ih =>
    have hpos : (0 : Int) < 256 ^ n := by positivity
    have hdiv : x / 256 ^ n / 256 = x / 256 ^ (n + 1) := by rw [Int.ediv_ediv_of_nonneg hpos.le, pow_succ]
    rw [leValue, Nat.cast_add, Nat.cast_mul, ih fun i hi => h i (by omega), h n (by omega), Int.emod_def,
      Int.emod_def _ 256, Int.emod_def x (256 ^ (n + 1)), hdiv, pow_succ]
    push_cast
    ring

theorem fileInstant_of_digits {m : Image} {o : Nat} {x : Int} (h : o + 8 ≤ m.size)
    (hd : ∀ i < 8, ((m.read (o + i)).toNat : Int) = x / 256 ^ i % 256) (hx : -2 ^ 63 ≤ x ∧ x < 2 ^ 63) :
    fileInstant m.toList o = x := by
  have hv := leValue_of_digits hd
  rw [fileInstant, fileField_toList h]
  split <;> omega

/-! ### Five fields of a trailer (R554, R555) -/

/-- The fields at `p` are those of the units `u` and of the two flags. -/
def FieldsAt (l : List Byte) (p : Nat) (u : Latched) (halted carry : Bool) : Prop :=
  fileField l p 4 = u.s ∧ fileField l (p + 4) 4 = u.m ∧ fileField l (p + 8) 4 = u.h
    ∧ fileField l (p + 12) 4 = u.d % 256 ∧ fileField l (p + 16) 4 = flagsByte u.d halted carry

section
variable {l : List Byte} {p : Nat} {u : Latched} {halted carry : Bool} (h : FieldsAt l p u halted carry)
include h

theorem FieldsAt.halted_eq : decide (fileField l (p + 16) 4 / 0x40 % 2 = 1) = halted := by
  obtain ⟨-, -, -, -, hf⟩ := h
  rw [hf, flagsByte]
  cases halted <;> cases carry <;> simp <;> omega

theorem FieldsAt.carry_eq : decide (fileField l (p + 16) 4 / 0x80 % 2 = 1) = carry := by
  obtain ⟨-, -, -, -, hf⟩ := h
  rw [hf, flagsByte]
  cases halted <;> cases carry <;> simp <;> omega

variable (hu : LatchedOk u)
include hu

theorem FieldsAt.days : trailerDays l p = u.d := by
  obtain ⟨-, -, -, hd, hf⟩ := h
  obtain ⟨-, -, -, hlt⟩ := hu
  rw [trailerDays, hd, hf, flagsByte]
  split <;> split <;> omega

/-- Units in range are in the ranges of their fields (R555). -/
theorem FieldsAt.inRange :
    fileField l p 4 ≤ 59 ∧ fileField l (p + 4) 4 ≤ 59 ∧ fileField l (p + 8) 4 ≤ 23
      ∧ fileField l (p + 12) 4 ≤ 255
      ∧ ∃ d h c : Nat, d ≤ 1 ∧ h ≤ 1 ∧ c ≤ 1 ∧ fileField l (p + 16) 4 = d + 0x40 * h + 0x80 * c := by
  obtain ⟨hs, hm, hh, hd, hf⟩ := h
  obtain ⟨ls, lm, lh, -⟩ := hu
  refine ⟨by omega, by omega, by omega, by omega, u.d / 256 % 2, halted.toNat, carry.toNat, by omega,
    Bool.toNat_le _, Bool.toNat_le _, ?_⟩
  rw [hf, flagsByte]
  cases halted <;> cases carry <;> rfl

end

/-! ### The units of a time put together (R412, R556) -/

/-- The seconds of a clock that shows the units `u`. -/
def secondsOf (u : Latched) : Nat := u.s + 60 * u.m + 3600 * u.h + 86400 * u.d

/-- The snapshot of an elapsed time. -/
def unitsAt (e : Int) : Latched :=
  { s := (unit e 1 60).toNat, m := (unit e 60 60).toNat, h := (unit e 3600 24).toNat,
    d := (unit e 86400 512).toNat }

theorem latchedOk_unitsAt (e : Int) : LatchedOk (unitsAt e) := by
  unfold LatchedOk unitsAt unit
  dsimp only
  omega

/-- A time put together from the units of another has its units. -/
theorem unit_secondsOf_unitsAt (e : Int) : ∀ p ∈ [((1, 60) : Int × Int), (60, 60), (3600, 24), (86400, 512)],
    unit (secondsOf (unitsAt e)) p.1 p.2 = unit e p.1 p.2 := by
  have hmod : (secondsOf (unitsAt e) : Int) = e % (86400 * 512) := by
    simp only [secondsOf, unitsAt, unit]
    omega
  simp only [List.forall_mem_cons, hmod, unit]
  exact ⟨by omega, by omega, by omega, by omega, nofun⟩

/-! ### The fields of a saved file -/

section
variable {s : State} (hm : MemoryOk s) (hs : SizesOk s)
include hm hs

/-- The RAM part of a saved file, read as an array, is the cartridge RAM. -/
theorem read_ramPart_savedFile (x : Nat) :
    (Image.ofBytes ((savedFile s).toList.take (ramPart s))).read x = ramByte s x := by
  have hsize := savedFile_size hs
  have hlen : ((savedFile s).toList.take (ramPart s)).length = ramPart s := by
    rw [List.length_take, toList_length]
    omega
  by_cases hx : x < ramPart s
  · have hfile : (savedFile s).toList[x]? = some (ramByte s x) := by
      rw [getElem?_toList (by omega), savedFile_ram hm hs hx]
    rw [Image.read_ofBytes _ (hlen.symm ▸ hx), List.getElem_take]
    exact (List.getElem?_eq_some_iff.1 hfile).2
  · rw [ramByte_eq_savedRam, Image.read_beyond (by rw [Image.ofBytes_size]; omega),
      Image.read_beyond (by rw [savedRam_size hs]; omega)]

variable (hr : s.cfg.cart.hasRtc = true)
include hr

theorem fileField_savedFile {j : Nat} (hj : j < 10) :
    some (fileField (savedFile s).toList (ramPart s + 4 * j) 4)
      = ((trailerBytes (rtcNormalize (nowOf s) s.g1.rtc) s.host.now).map BitVec.toNat)[j]? := by
  obtain ⟨hzero, hbyte⟩ := savedFile_field hm hs hr hj
  have hsize := savedFile_size hs
  rw [if_pos hr] at hsize
  rw [fileField_pad4 (by omega) hzero, hbyte]

/-- The carry that `Normalize()` leaves (R415). -/
def normalizedCarry (s : State) : Bool := s.g1.rtc.carry || decide (512 ≤ elapsedOf s / 86400)

theorem fieldsAt_savedFile (hok : RtcOk s) :
    FieldsAt (savedFile s).toList (ramPart s) (unitsAt (elapsedOf s)) s.g1.rtc.halted (normalizedCarry s)
    ∧ FieldsAt (savedFile s).toList (ramPart s + 0x14) s.g1.rtc.latched s.g1.rtc.halted (normalizedCarry s) := by
  have hfield : ∀ j < 10, _ := fun j hj => fileField_savedFile hm hs hr (j := j) hj
  rw [map_toNat_trailerBytes hok] at hfield
  have value {j v : Nat} (hj : j < 10) (hv : _ = some v) :
      fileField (savedFile s).toList (ramPart s + 4 * j) 4 = v := Option.some.inj ((hfield j hj).trans hv)
  exact ⟨⟨value (j := 0) (by decide) rfl, value (j := 1) (by decide) rfl, value (j := 2) (by decide) rfl,
      value (j := 3) (by decide) rfl, value (j := 4) (by decide) rfl⟩,
    ⟨value (j := 5) (by decide) rfl, value (j := 6) (by decide) rfl, value (j := 7) (by decide) rfl,
      value (j := 8) (by decide) rfl, value (j := 9) (by decide) rfl⟩⟩

theorem trailerInRange_savedFile (hok : RtcOk s) : TrailerInRange (savedFile s).toList (ramPart s) := by
  obtain ⟨hrunning, hsnapshot⟩ := fieldsAt_savedFile hm hs hr hok
  obtain ⟨-, -, hlatched⟩ := rtcOk_iff.1 hok
  rintro p (rfl | rfl)
  · exact hrunning.inRange (latchedOk_unitsAt _)
  · exact hsnapshot.inRange hlatched

/-- The clock that a saved file sets: the units of the time it was saved at, counted back from its instant. -/
theorem rtcLoad_savedFile (hok : RtcOk s) (now : Int) :
    rtcLoad ((savedFile s).toList.drop (ramPart s)) now =
      { reference := (if s.g1.rtc.halted then now
            else min (fileInstant (savedFile s).toList (ramPart s + 0x28)) now)
          - secondsOf (unitsAt (elapsedOf s))
        haltedInstant := now, halted := s.g1.rtc.halted, carry := normalizedCarry s
        latched := s.g1.rtc.latched } := by
  obtain ⟨hrunning, hsnapshot⟩ := fieldsAt_savedFile hm hs hr hok
  obtain ⟨-, -, hlatched⟩ := rtcOk_iff.1 hok
  rw [rtcLoad_eq _ _ (trailerInRange_savedFile hm hs hr hok), hrunning.halted_eq, hrunning.carry_eq,
    hrunning.days (latchedOk_unitsAt _), hsnapshot.days hlatched]
  obtain ⟨hs1, hm1, hh1, -⟩ := hrunning
  obtain ⟨hs2, hm2, hh2, -⟩ := hsnapshot
  rw [hs1, hm1, hh1, hs2, hm2, hh2]
  rfl

theorem fileInstant_savedFile (hx : -2 ^ 63 ≤ s.host.now ∧ s.host.now < 2 ^ 63) :
    fileInstant (savedFile s).toList (ramPart s + 0x28) = s.host.now := by
  have hsize := savedFile_size hs
  rw [if_pos hr] at hsize
  exact fileInstant_of_digits (by omega) (fun i hi => savedFile_stamp hm hs hr hi) hx

end

/-! ### Generation 1 (R558) -/

section
variable {s u : State}

theorem ramPart_congr (hc : u.cfg = s.cfg) : ramPart u = ramPart s := by rw [ramPart, ramPart, hc]

/-- Where the array put in place of the RAM's has its size, the RAM reads as that array. -/
theorem ramByte_withRam1 (hs : SizesOk u) {m : Image} (hm : m.size = ramPart u) (r : Rtc) (x : Nat) :
    ramByte (withRam1 (with1 u { u.g1 with rtc := r }) m) x = m.read x := by
  have hsize := savedRam_size hs
  unfold savedRam at hsize
  unfold ramByte
  cases hn : u.g1.nvs1 with
  | none =>
    rw [hn] at hsize
    rw [Image.read_beyond (m := m) (by rw [hm, ← hsize]; exact Nat.zero_le x)]
    simp [withRam1, with1, hn]
  | some n => simp [withRam1, with1, hn]

/-- `load` of a saved file: the RAM is set from the file's RAM part, and some clock. -/
theorem loadBytes1_savedFile (hm : MemoryOk s) (hs : SizesOk s) (hok : RtcOk s) (hc : u.cfg = s.cfg) :
    ∃ r, loadBytes1 (savedFile s).toList u = .next (withRam1 (with1 u { u.g1 with rtc := r })
        (.ofBytes ((savedFile s).toList.take (ramPart s))))
      ∧ (s.cfg.cart.hasRtc = true → r = rtcLoad ((savedFile s).toList.drop (ramPart s)) u.host.now) := by
  have hpart := ramPart_congr hc
  have hlen : (savedFile s).toList.length = _ := (toList_length _).trans (savedFile_size hs)
  cases hr : s.cfg.cart.hasRtc with
  | true =>
    rw [if_pos hr, ← hpart] at hlen
    have hin := trailerInRange_savedFile hm hs hr hok
    rw [← hpart] at hin
    refine ⟨_, ?_, fun _ => rfl⟩
    rw [loadBytes1_trailer (hc ▸ hr) hlen, loadTrailer_inRange hin, hpart]
  | false =>
    rw [hr, if_neg (by decide), Nat.add_zero, ← hpart] at hlen
    refine ⟨.fresh u.host.now, ?_, nofun⟩
    rw [loadBytes1, saveBase_eq_ramPart, if_pos hlen, ← hpart, List.take_of_length_le hlen.le]
    rfl

end

/-- The time that the loaded clock shows, less the time that has passed, is the saved one's. -/
theorem elapsedOf_loaded {s u : State} (hm : MemoryOk s) (hs : SizesOk s) (hr : s.cfg.cart.hasRtc = true)
    (hok : RtcOk s) (hnow : s.host.now ≤ u.host.now)
    (hx : s.g1.rtc.halted = false → -2 ^ 63 ≤ s.host.now ∧ s.host.now < 2 ^ 63) {g : Gen1}
    (hg : g.rtc = rtcLoad ((savedFile s).toList.drop (ramPart s)) u.host.now) :
    elapsedOf (with1 u g) - (if s.g1.rtc.halted then 0 else u.host.now - s.host.now)
      = secondsOf (unitsAt (elapsedOf s)) := by
  rw [rtcLoad_savedFile hm hs hr hok] at hg
  have helapsed : elapsedOf (with1 u g) = (if g.rtc.halted then g.rtc.haltedInstant else u.host.now)
      - g.rtc.reference := rfl
  rw [helapsed, hg]
  cases hhalted : s.g1.rtc.halted with
  | true => simp
  | false =>
    simp only [fileInstant_savedFile hm hs hr (hx hhalted), min_eq_left hnow, Bool.false_eq_true, if_false]
    omega

/-! ### Generation 2 (R568) -/

theorem fileSize_injective {v w : SaveVariant} (h : fileSize v = fileSize w) : v = w := by
  cases v <;> cases w <;> simp_all [fileSize]

/-- What `serialize` gives is a file of the variant's size, and a device made of it holds its bytes. -/
theorem serialize2_holds {s : State} {m : Image} (hst : StorageOk s) (h : serialize2 s = some m) :
    ∃ v, m.size = fileSize v ∧ ∀ y : Image, y.toList = m.toList → Holds s.cfg s.g2.nvs2 (device s.cfg v y) := by
  rw [storageOk_iff] at hst
  unfold serialize2 at h
  cases hn : s.g2.nvs2 with
  | unresolved => rw [hn] at h; cases h
  | batteryRam x =>
    rw [hn] at h hst
    cases h
    exact ⟨.batteryRam, hst, fun y hy => ⟨y, rfl, hy⟩⟩
  | eeprom e =>
    rw [hn] at h hst
    obtain ⟨hsize, -⟩ := hst
    dsimp only at h
    split at h <;> cases h
    refine ⟨if e.addrBits = .six then .eeprom6 else .eeprom14, ?_, fun y hy => ⟨y, hy, rfl⟩⟩
    rw [hsize]
    split <;> rfl
  | flash f =>
    rw [hn] at h hst
    obtain ⟨hsize, -⟩ := hst
    cases h
    refine ⟨if f.bytes.size = 0x20000 then .flash128 else .flash64, ?_, fun y hy => ⟨y, hy, rfl⟩⟩
    obtain hsize | hsize := hsize <;> rw [hsize] <;> rfl

/-- Settles O60: generation 2 makes the variant of the file's size again; generation 1 reads back the fields
that `serialize` wrote. -/
theorem savedFileLoadsBack : Obligations.SavedFileLoadsBack := by
  intro s t u m hser hresult hc hnow hload hm hs hsu
  refine ⟨fun g hst hover => ?_, fun g hok => ?_⟩
  · cases (callSerialize_gen2 g true).symm.trans hser
    obtain ⟨v, hsize, hholds⟩ := serialize2_holds hst (Result.file.inj hresult)
    have ho : u.cfg.saveOverride = none ∨ u.cfg.saveOverride = some v := by
      rw [hc]
      cases hv : s.cfg.saveOverride with
      | none => exact .inl rfl
      | some w => exact .inr (congrArg some (fileSize_injective ((hover w hv).symm.trans hsize)))
    have hlen : m.toList.length = fileSize v := (toList_length m).trans hsize
    refine ⟨_, (callLoad_gen2 (hc ▸ g) hload _).trans (load2_bytes ho hlen), ?_⟩
    rw [hc]
    exact hholds _ (Image.toList_ofBytes _)
  · have hb : s.cfg.cart.hasBattery = true := by
      cases hb : s.cfg.cart.hasBattery with
      | true => rfl
      | false =>
        cases (callSerialize_noBattery g hb true).symm.trans hser
        cases hresult
    cases (callSerialize_battery g hb true).symm.trans hser
    cases hresult
    obtain ⟨r, hloaded, hclock⟩ := loadBytes1_savedFile (u := u) hm hs hok hc
    refine ⟨(withRam1 (with1 u { u.g1 with rtc := r }) (.ofBytes ((savedFile s).toList.take (ramPart s)))).g1,
      (exec_loadGen1_battery (hc ▸ g) hload (hc ▸ hb) _).trans hloaded, fun x => ?_, fun hr => ?_⟩
    · refine (ramByte_withRam1 hsu ?_ r x).trans (read_ramPart_savedFile hm hs x)
      have hsize := savedFile_size hs
      rw [Image.ofBytes_size, List.length_take, toList_length, ramPart_congr hc]
      omega
    · have hr' := hclock hr
      refine ⟨fun hx p hp => ?_, ?_⟩
      · rw [elapsedOf_loaded hm hs hr hok hnow hx hr']
        exact unit_secondsOf_unitsAt _ p hp
      · rw [rtcLoad_savedFile hm hs hr hok] at hr'
        rw [normalizedFor_rtc hr, rtcNormalize_eq]
        subst hr'
        exact ⟨rfl, rfl, rfl⟩

end Sys2Proof.Machine
end
